-- ==== Sys2Proof/Word.lean ====
section
/-! DEFINITION. The word types of SWCP: 32-bit registers, bytes, binary64 bit patterns, and the two levels of
the single-wire line (00_scope.md rules R9, R12, R14; 10_state.md rule R20). -/

namespace Sys2Proof

/-- A register value or a command word: 32 bits (R9 "Every register is 32 bits unless stated otherwise"). -/
abbrev Word := BitVec 32

/-- One byte. -/
abbrev Byte := BitVec 8

/-- A binary64 bit pattern (R12). Its meaning is given by the functions of Machine/Float.lean. -/
abbrev F64 := BitVec 64

/-- A level of the single-wire line (R8, R14: Low = 0 and High = 1). -/
inductive Level where
  | low
  | high
  deriving DecidableEq, Repr, Inhabited

end Sys2Proof
end

