-- ==== Sys2Proof/Syntax.lean ====
section
/-! DEFINITION. The commands of SWCP (30_encoding.md rule R91): one constructor per row of
spec/opcode_table.json. No command has a register number, an immediate or a mode (R90, R94). -/

namespace Sys2Proof

/-- A command. Its operands are registers of the block, read from the acceptance snapshot (R94). -/
inductive Instr where
  /-- NOP, 43_control.md R180. -/
  | nop
  /-- CAL_LOAD, 40_calibration.md R110. -/
  | calLoad
  /-- TEMP_COMP, 41_compensation.md R135. -/
  | tempComp
  /-- PRES_COMP, 41_compensation.md R136. -/
  | presComp
  /-- ALT_COMP, 41_compensation.md R142. -/
  | altComp
  /-- SW_READ, 42_singlewire.md R166. -/
  | swRead
  /-- SW_CHECK, 42_singlewire.md R167. -/
  | swCheck
  deriving DecidableEq, Repr

end Sys2Proof
end

