-- ==== Sys2Proof/WellFormed.lean ====
section
/-! DEFINITION. Which command words are legal (30_encoding.md rule R92). A command of `Instr` has no operand
field, so every term of `Instr` is well formed; the two checks of R92 are on the 32-bit word. -/

namespace Sys2Proof

/-- The OPC field CMD[7:0] (R90). -/
def opcField (w : Word) : Byte := w.extractLsb' 0 8

/-- The RSV field CMD[31:8] (R90). -/
def rsvField (w : Word) : BitVec 24 := w.extractLsb' 8 24

/-- First check of R92: CMD[31:8] = 0. -/
def rsvClear (w : Word) : Bool := rsvField w = 0

/-- The seven defined OPC values (R91). -/
def definedOpcs : List Byte := [0x00, 0x01, 0x02, 0x03, 0x04, 0x10, 0x11]

/-- Second check of R92: CMD[7:0] is an OPC of rule R91. -/
def opcDefined (w : Word) : Bool := definedOpcs.contains (opcField w)

/-- R92: "A CMD word is **legal** when `CMD[31:8] = 0` and `CMD[7:0]` is an OPC of rule R91." -/
def legalWord (w : Word) : Bool := rsvClear w && opcDefined w

/-- R94: no command has an operand field, so nothing about a term of `Instr` can be ill formed. -/
def Instr.wf (_ : Instr) : Bool := true

end Sys2Proof
end

