-- ==== Sys2Proof/Decode.lean ====
section
/-! DEFINITION. The decoder of command words, total on every 32-bit word and rejecting by name, and the encoder
(30_encoding.md rules R90 to R95). No mode changes how a word decodes and every command is one word (R95). -/

namespace Sys2Proof

/-- Why a word is illegal (R92): either reason makes the accepted word commit with ERRCODE 8 (R198). -/
inductive DecodeError where
  /-- CMD[31:8] is not 0, whatever the OPC. -/
  | rsvNonzero
  /-- CMD[31:8] is 0 and CMD[7:0] is 0x05..0x0F or 0x12..0xFF. -/
  | undefinedOpc
  deriving DecidableEq, Repr

/-- The opcode map of R91 by OPC. -/
def decodeOpc (opc : Byte) : Option Instr :=
  if opc = 0x00 then some .nop
  else if opc = 0x01 then some .calLoad
  else if opc = 0x02 then some .tempComp
  else if opc = 0x03 then some .presComp
  else if opc = 0x04 then some .altComp
  else if opc = 0x10 then some .swRead
  else if opc = 0x11 then some .swCheck
  else none

/-- Decode one command word (R90, R91, R92). -/
def decode (w : Word) : Except DecodeError Instr :=
  if rsvField w = 0 then
    match decodeOpc (opcField w) with
    | some i => .ok i
    | none => .error .undefinedOpc
  else .error .rsvNonzero

/-- The OPC of each command (R91). -/
def opcode : Instr → Byte
  | .nop => 0x00
  | .calLoad => 0x01
  | .tempComp => 0x02
  | .presComp => 0x03
  | .altComp => 0x04
  | .swRead => 0x10
  | .swCheck => 0x11

/-- The command word of each command: RSV = 0 above its OPC (R90, R91). -/
def encode (i : Instr) : Word := (0 : BitVec 24) ++ opcode i

/-- The command a table word stands for: a CMD word of `nbits` bits, zero above them. A command is one 32-bit word
on a bus that has 32-bit accesses only (R74, R95), so a number of more bits is no command. -/
def decodeTableWord (nbits w : Nat) : Option Instr :=
  let v := w % 2 ^ nbits
  if v < 2 ^ 32 then
    match decode (BitVec.ofNat 32 v) with
    | .ok i => some i
    | .error _ => none
  else none

end Sys2Proof
end

