-- ==== Sys2Proof/Machine/Float.lean ====
section
/-! DEFINITION. IEEE 754 binary64 on bit patterns, round to nearest, ties to even (00_scope.md rule R12,
41_compensation.md rule R123): each operation forms the exact result and rounds once. No flag is recorded and nothing
traps; subnormals are kept; every NaN result is the canonical quiet NaN. -/

namespace Sys2Proof.Machine

/-- What a bit pattern denotes. `fin neg m e` is the number (-1)^neg · m · 2^e; `m = 0` is a signed zero. -/
inductive F64Value where
  | nan
  | inf (neg : Bool)
  | fin (neg : Bool) (m : Nat) (e : Int)
  deriving DecidableEq, Repr

/-- The canonical quiet NaN (R123). -/
def f64NaN : F64 := 0x7FF8000000000000

/-- Sign bit over a 63-bit magnitude field. -/
def f64Signed (neg : Bool) (mag : Nat) : F64 := BitVec.ofBool neg ++ BitVec.ofNat 63 mag

/-- The magnitude field of an infinity: exponent field 2047, fraction 0. -/
def f64InfMag : Nat := 0x7FF0000000000000

/-- Infinity of the given sign. -/
def f64Inf (neg : Bool) : F64 := f64Signed neg f64InfMag

/-- Zero of the given sign. -/
def f64Zero (neg : Bool) : F64 := f64Signed neg 0

/-- The 63 bits below the sign. -/
def f64Mag (x : F64) : Nat := (x.extractLsb' 0 63).toNat

/-- The sign bit. -/
def f64Neg (x : F64) : Bool := x.getLsbD 63

/-- Is the pattern a NaN? -/
def f64IsNaN (x : F64) : Bool := f64InfMag < f64Mag x

/-- Is the pattern a finite number? -/
def f64IsFinite (x : F64) : Bool := f64Mag x < f64InfMag

/-- The order key of a pattern that is no NaN: the magnitude field, negated below zero. The magnitude field grows with
the magnitude, and both zeros have key 0. -/
def f64Key (x : F64) : Int := if f64Neg x then -(f64Mag x : Int) else (f64Mag x : Int)

/-- IEEE 754 `≤`: false when an operand is a NaN. -/
def f64Le (x y : F64) : Bool := !f64IsNaN x && !f64IsNaN y && f64Key x ≤ f64Key y

/-- IEEE 754 `<`: false when an operand is a NaN. -/
def f64Lt (x y : F64) : Bool := !f64IsNaN x && !f64IsNaN y && f64Key x < f64Key y

/-- Read a bit pattern. -/
def f64Value (x : F64) : F64Value :=
  let ex := (x.extractLsb' 52 11).toNat
  let fr := (x.extractLsb' 0 52).toNat
  if ex = 2047 then (if fr = 0 then .inf (f64Neg x) else .nan)
  else if ex = 0 then .fin (f64Neg x) fr (-1074)
  else .fin (f64Neg x) (2 ^ 52 + fr) ((ex : Int) - 1075)

/-- The quotient `n / d` rounded to the nearest integer, ties to the even one (d > 0). -/
def roundHalfEven (n d : Nat) : Nat :=
  let q := n / d
  let r := n % d
  if d < 2 * r ∨ (2 * r = d ∧ q % 2 = 1) then q + 1 else q

/-- The greatest k with 2^k ≤ n / d, for n, d > 0. -/
def floorLog2 (n d : Nat) : Int :=
  let k : Int := (Nat.log2 n : Int) - (Nat.log2 d : Int)
  if d * 2 ^ k.toNat ≤ n * 2 ^ (-k).toNat then k else k - 1

/-- R12, `f64(x)` for the real number x = (-1)^neg · (num / den) · 2^e, den > 0: the nearest binary64 value, ties to
even; a zero keeps the sign given. The unit of the last place is 2^q with q at least -1074 (subnormals are kept), and
a magnitude that rounds to 2^1024 or more is an infinity. -/
def f64Round (neg : Bool) (num den : Nat) (e : Int) : F64 :=
  let n := num * 2 ^ e.toNat
  let d := den * 2 ^ (-e).toNat
  if n = 0 then f64Zero neg
  else
    let q : Int := max (floorLog2 n d - 52) (-1074)
    let m := roundHalfEven (n * 2 ^ (-q).toNat) (d * 2 ^ q.toNat)
    let mag := (q + 1074).toNat * 2 ^ 52 + m
    f64Signed neg (min mag f64InfMag)

/-- R12, `f64_of_int(i) = f64(i)`; exact for |i| < 2^53. -/
def f64OfInt (i : Int) : F64 := f64Round (i < 0) i.natAbs 1 0

/-- Round the integer multiple n · 2^e. An exact zero sum takes the sign `zeroNeg`. -/
def f64RoundInt (zeroNeg : Bool) (n e : Int) : F64 :=
  f64Round (if n = 0 then zeroNeg else n < 0) n.natAbs 1 e

/-- The signed mantissa of a finite number. -/
def signedMant (neg : Bool) (m : Nat) : Int := if neg then -(m : Int) else (m : Int)

/-- The exact sum of two finite numbers, rounded once. An exact zero is +0 unless both addends are negative
(IEEE 754's sign rule under round to nearest). -/
def f64SumFin (n1 : Bool) (m1 : Nat) (e1 : Int) (n2 : Bool) (m2 : Nat) (e2 : Int) : F64 :=
  let e := min e1 e2
  let sum := signedMant n1 m1 * 2 ^ (e1 - e).toNat + signedMant n2 m2 * 2 ^ (e2 - e).toNat
  f64RoundInt (n1 && n2) sum e

/-- Sum of two read operands. -/
def f64SumValue : F64Value → F64Value → F64
  | .nan, _ => f64NaN
  | _, .nan => f64NaN
  | .inf a, .inf b => if a = b then f64Inf a else f64NaN
  | .inf a, .fin _ _ _ => f64Inf a
  | .fin _ _ _, .inf b => f64Inf b
  | .fin n1 m1 e1, .fin n2 m2 e2 => f64SumFin n1 m1 e1 n2 m2 e2

/-- R12, `f64_add`. -/
def f64Add (x y : F64) : F64 := f64SumValue (f64Value x) (f64Value y)

/-- The negated value of an operand (a NaN stays a NaN). -/
def f64NegValue : F64Value → F64Value
  | .nan => .nan
  | .inf a => .inf (!a)
  | .fin a m e => .fin (!a) m e

/-- R12, `f64_sub`. -/
def f64Sub (x y : F64) : F64 := f64SumValue (f64Value x) (f64NegValue (f64Value y))

/-- The exact product of two read operands: a NaN, an infinity, or a finite number not yet rounded. -/
def f64ProdValue : F64Value → F64Value → F64Value
  | .nan, _ => .nan
  | _, .nan => .nan
  | .inf a, .inf b => .inf (a ^^ b)
  | .inf a, .fin b m _ => if m = 0 then .nan else .inf (a ^^ b)
  | .fin a m _, .inf b => if m = 0 then .nan else .inf (a ^^ b)
  | .fin a m1 e1, .fin b m2 e2 => .fin (a ^^ b) (m1 * m2) (e1 + e2)

/-- Round an exact value to a bit pattern. -/
def f64OfValue : F64Value → F64
  | .nan => f64NaN
  | .inf a => f64Inf a
  | .fin a m e => f64Round a m 1 e

/-- R12, `f64_mul`. -/
def f64Mul (x y : F64) : F64 := f64OfValue (f64ProdValue (f64Value x) (f64Value y))

/-- R12, `f64_fma(a, b, c) = f64(a·b + c)`: the product is exact and the sum is rounded once. -/
def f64Fma (a b c : F64) : F64 := f64SumValue (f64ProdValue (f64Value a) (f64Value b)) (f64Value c)

/-- Quotient of two read operands (R123: ±inf on division of a nonzero value by zero, NaN on 0/0 and inf/inf). -/
def f64QuotValue : F64Value → F64Value → F64
  | .nan, _ => f64NaN
  | _, .nan => f64NaN
  | .inf _, .inf _ => f64NaN
  | .inf a, .fin b _ _ => f64Inf (a ^^ b)
  | .fin a _ _, .inf b => f64Zero (a ^^ b)
  | .fin a m1 e1, .fin b m2 e2 =>
    if m2 = 0 then (if m1 = 0 then f64NaN else f64Inf (a ^^ b))
    else f64Round (a ^^ b) m1 m2 (e1 - e2)

/-- R12, `f64_div`. -/
def f64Div (x y : F64) : F64 := f64QuotValue (f64Value x) (f64Value y)

/-- R123: every NaN written is the canonical one. -/
def f64Canon (x : F64) : F64 := if f64IsNaN x then f64NaN else x

/-! The binary64 literals of the rules, each with the bit pattern the rule gives. -/

/-- 1.0. -/
def f64One : F64 := 0x3FF0000000000000
/-- 10.0 (R162). -/
def f64Ten : F64 := 0x4024000000000000
/-- 1.8 (R162). -/
def f64OnePointEight : F64 := 0x3FFCCCCCCCCCCCCD
/-- 32.0 (R162). -/
def f64ThirtyTwo : F64 := 0x4040000000000000
/-- 273.15 (R162). -/
def f64KelvinOffset : F64 := 0x4071126666666666
/-- 5.255 (R140). -/
def f64AltDivisor : F64 := 0x4015051EB851EB85
/-- 44330.0 (R140). -/
def f64AltScale : F64 := 0x40E5A54000000000
/-- 101325.0, the sea-level default (R42). -/
def f64SeaLevelDefault : F64 := 0x40F8BCD000000000
/-- The exponent e = f64_div(1.0, 5.255) of R140. -/
def f64AltExponent : F64 := 0x3FC85B95CCD9456C

end Sys2Proof.Machine
end

