-- ==== Sys2Proof/Config.lean ====
section
/-! DEFINITION. What an implementation fixes, as 00_scope.md rule R5 names it, and the free values. None of them has
a value here: the parameters, the power function and the line's levels are opaque. -/

namespace Sys2Proof

/-- The OPEN parameters of rule R5 that are plain data. A parameter's own bound holds by the form of its field. -/
structure Params where
  /-- `P_BASE` / 4096: the base is 4 KiB aligned. -/
  basePage : Nat
  /-- `P_CLK_PER_TICK` - 1: the parameter is an integer >= 1. -/
  clkPerTickPred : Nat
  /-- `P_COMP_LATENCY` - 1, the commit tick of R197: the parameter is an integer >= 1, and `cnt`, which is compared
  with it, has 32 bits (R61). -/
  lastCompTick : BitVec 32
  /-- `P_EXPECTED_ID`. -/
  expectedId : Byte
  /-- `P_TEMP_CMD`. -/
  tempCmd : Byte
  /-- `P_PRESS_CMD_BASE`. -/
  pressCmdBase : Byte
  /-- `P_SW_MIN_INTERVAL`, host-side only: SWCP does not enforce it (R239). -/
  swMinInterval : Nat
  deriving DecidableEq, Repr, Inhabited

namespace Config

/-- The parameters of the instance that `State.reset` describes: no value is chosen (R5). -/
opaque params : Params

/-- The level of the line at a tick for which the environment has listed no sample: "a free input (a draw), under no
law" (R8), one value for each draw. -/
opaque line : Nat → Level

end Config

open Machine in
/-- A function that meets the laws L1 to L4, so that the type `PowFn` is not empty. It is not the model's power function. -/
def powExample (x _y : F64) : F64 :=
  if f64IsNaN x then f64NaN
  else if f64Key x < 0 then f64NaN
  else if f64Key x = 0 then f64Zero false
  else if f64IsFinite x then f64One
  else f64Inf false

open Machine in
theorem f64Le_zero_left {x : F64} (h : f64Le (f64Zero false) x = true) :
    f64IsNaN x = false ∧ f64Key x = (f64Mag x : Int) := by
  have hz : f64Key (f64Zero false) = 0 := by decide
  simp only [f64Le, Bool.and_eq_true, Bool.not_eq_true', decide_eq_true_eq, hz] at h
  refine ⟨h.1.2, ?_⟩
  have := h.2
  unfold f64Key at this ⊢
  split <;> simp_all

open Machine in
theorem powExample_mono (x₁ x₂ : F64) (h₁ : f64Le (f64Zero false) x₁ = true) (h₂ : f64Le x₁ x₂ = true) :
    f64Le (powExample x₁ f64AltExponent) (powExample x₂ f64AltExponent) = true := by
  have ⟨n1, m1⟩ := f64Le_zero_left h₁
  have hk : f64Key x₁ ≤ f64Key x₂ := by
    simp only [f64Le, Bool.and_eq_true, decide_eq_true_eq] at h₂; exact h₂.2
  have n2 : f64IsNaN x₂ = false := by
    simp only [f64Le, Bool.and_eq_true, Bool.not_eq_true'] at h₂; exact h₂.1.2
  have m2 : f64Key x₂ = (f64Mag x₂ : Int) := by
    unfold f64Key at hk m1 ⊢
    split <;> simp_all <;> omega
  have a1 : ¬ f64Key x₁ < 0 := by omega
  have a2 : ¬ f64Key x₂ < 0 := by omega
  simp only [powExample, n1, n2, a1, a2, if_false, Bool.false_eq_true]
  by_cases z1 : f64Key x₁ = 0 <;> by_cases z2 : f64Key x₂ = 0 <;>
    by_cases f1 : f64IsFinite x₁ = true <;> by_cases f2 : f64IsFinite x₂ = true <;>
    simp only [z1, z2, f1, f2, if_true, if_false, Bool.false_eq_true]
  all_goals first
    | decide
    | (exfalso; simp only [f64IsFinite, decide_eq_true_eq] at f1 f2; omega)

open Machine in
theorem powExample_pos_finite (x : F64) (hf : f64IsFinite x = true) (h : f64Lt (f64Zero false) x = true) :
    f64IsFinite (powExample x f64AltExponent) = true ∧
      f64Lt (f64Zero false) (powExample x f64AltExponent) = true := by
  have hz : f64Key (f64Zero false) = 0 := by decide
  simp only [f64Lt, Bool.and_eq_true, Bool.not_eq_true', decide_eq_true_eq, hz] at h
  have a1 : ¬ f64Key x < 0 := by omega
  have a2 : ¬ f64Key x = 0 := by omega
  simp only [powExample, h.1.2, a1, a2, hf, if_true, if_false, Bool.false_eq_true]
  decide

open Machine in
theorem powExample_neg_base (x : F64) (h : f64Lt x (f64Zero false) = true) :
    f64IsNaN (powExample x f64AltExponent) = true := by
  have hz : f64Key (f64Zero false) = 0 := by decide
  simp only [f64Lt, Bool.and_eq_true, Bool.not_eq_true', decide_eq_true_eq, hz] at h
  simp only [powExample, h.1.1, h.2, if_true, if_false, Bool.false_eq_true]
  decide

open Machine in
theorem powExample_nan_base (x : F64) (h : f64IsNaN x = true) :
    f64IsNaN (powExample x f64AltExponent) = true := by
  simp only [powExample, h, if_true]
  decide

open Machine in
/-- 41_compensation.md rule R141: a total function from binary64 × binary64 to binary64 that meets the laws L1 to L4
for the exponent of rule R140. L5 is optional and is not assumed. -/
structure PowFn where
  fn : F64 → F64 → F64 := powExample
  /-- L1. -/
  one_base : ∀ y, fn f64One y = f64One := by intro y; rfl
  /-- L2. -/
  mono : ∀ x₁ x₂, f64Le (f64Zero false) x₁ = true → f64Le x₁ x₂ = true →
      f64Le (fn x₁ f64AltExponent) (fn x₂ f64AltExponent) = true := by exact powExample_mono
  /-- L3. -/
  pos_finite : ∀ x, f64IsFinite x = true → f64Lt (f64Zero false) x = true →
      f64IsFinite (fn x f64AltExponent) = true ∧ f64Lt (f64Zero false) (fn x f64AltExponent) = true := by
    exact powExample_pos_finite
  /-- L4, first case. -/
  zero_base : fn (f64Zero false) f64AltExponent = f64Zero false := by decide
  /-- L4, second case. -/
  inf_base : fn (f64Inf false) f64AltExponent = f64Inf false := by decide
  /-- L4, third case: NaN for x < 0. -/
  neg_base : ∀ x, f64Lt x (f64Zero false) = true → f64IsNaN (fn x f64AltExponent) = true := by
    exact powExample_neg_base
  /-- L4, last case: NaN for a NaN x. -/
  nan_base : ∀ x, f64IsNaN x = true → f64IsNaN (fn x f64AltExponent) = true := by
    exact powExample_nan_base
  deriving Inhabited

/-- `P_POW` (R141): any function with the laws, nothing more. -/
opaque Config.pow : PowFn

end Sys2Proof
end

