-- ==== Sys2Proof/Machine/State.lean ====
section
/-! DEFINITION. The state of SWCP as plain data (10_state.md), grouped as rule R65 groups the registers, the events
the outside world sends (00_scope.md R16), the reasons a step can stop, and the state right after reset (R67). -/

namespace Sys2Proof.Machine

/-- R23: the units CTRL.UNIT and SWUNIT name; "The field always reads 0, 1 or 2". -/
inductive TempUnit where
  | celsius
  | fahrenheit
  | kelvin
  deriving DecidableEq, Repr

/-- R60: the sequencer states, SWCP's program counter. -/
inductive Seq where
  | idle
  | prep
  | startLow
  | release
  | ackLow
  | ackHigh
  | bitEdge
  | bitDelay
  | bitRestore
  | swFinish
  | compute
  deriving DecidableEq, Repr

/-- 60_exceptions.md R190: the values STATUS.ERRCODE takes; codes 9 to 15 are never written. -/
inductive ErrCode where
  | ok
  | communication
  | identityMismatch
  | invalidMode
  | checksum
  | notCalibrated
  | timeout
  | arithmetic
  | illegalCommand
  deriving DecidableEq, Repr

/-- R43: the coefficient file, eleven 16-bit coefficients. -/
structure Coefs where
  ac1 : BitVec 16
  ac2 : BitVec 16
  ac3 : BitVec 16
  ac4 : BitVec 16
  ac5 : BitVec 16
  ac6 : BitVec 16
  b1 : BitVec 16
  b2 : BitVec 16
  mb : BitVec 16
  mc : BitVec 16
  md : BitVec 16
  deriving DecidableEq, Repr

/-- R65, first group: the registers only the host writes. -/
structure HostRegs where
  /-- CTRL.IE (R22). -/
  ie : Bool
  /-- CTRL.UNIT (R23). -/
  unit : TempUnit
  /-- MODE[7:0] (R25). -/
  mode : Byte
  /-- TIMING.START_MS (R26). -/
  startMs : Byte
  /-- TIMING.RELEASE_US (R27). -/
  releaseUs : Byte
  /-- TIMING.WAIT_LIMIT_US (R28). -/
  waitLimit : BitVec 16
  /-- CALID[7:0] (R39). -/
  calid : Byte
  /-- RAWT[15:0] (R40). -/
  rawt : BitVec 16
  /-- RAWP[23:0] (R41). -/
  rawp : BitVec 24
  /-- SEALEVEL, HI over LO (R42). -/
  sealevel : F64
  /-- CALBYTE0..21 (R57). -/
  calbyte : Vector Byte 22
  deriving DecidableEq, Repr

/-- R51: the frame registers. -/
structure Frame where
  frame0 : Word
  frame1 : Byte
  deriving DecidableEq, Repr

/-- R30 to R35: the fields of STATUS. -/
structure Status where
  busy : Bool
  done : Bool
  ovr : Bool
  calValid : Bool
  errcode : ErrCode
  lastop : Byte
  deriving DecidableEq, Repr

/-- R63: the operand snapshot taken at acceptance. -/
structure Snap where
  unit : TempUnit
  mode : Byte
  startMs : Byte
  releaseUs : Byte
  waitLimit : BitVec 16
  calid : Byte
  calbyte : Vector Byte 22
  rawt : BitVec 16
  rawp : BitVec 24
  sealevel : F64
  frame0 : Word
  frame1 : Byte
  coef : Coefs
  calValid : Bool
  deriving DecidableEq, Repr

/-- R36, R59 to R63: the engine's position and hidden state. -/
structure Engine where
  /-- R60. -/
  seq : Seq
  /-- SEQ.ENDSTATE (R36). -/
  endstate : Seq
  /-- R61, a 32-bit phase counter. -/
  cnt : BitVec 32
  /-- R62, 0..40. -/
  bitidx : Nat
  /-- R62. -/
  shreg : BitVec 40
  /-- The accepted word w of 60_exceptions.md R197. -/
  cmd : Word
  /-- R63. -/
  snap : Snap
  /-- The sample of `sw_i` for the current tick (00_scope.md R7, R8). -/
  swI : Level
  deriving DecidableEq, Repr

/-- R44 to R46: the temperature results, written together. -/
structure TempResult where
  b5 : Word
  tempDc : Word
  temp : F64
  deriving DecidableEq, Repr

/-- R47 to R49: the pressure results, written together. -/
structure PresResult where
  up : Word
  pressPa : Word
  press : F64
  deriving DecidableEq, Repr

/-- R53 to R56: the single-wire results that only a success writes. -/
structure SwResult where
  swraw : Word
  hum : F64
  swtemp : F64
  swunit : TempUnit
  deriving DecidableEq, Repr

/-- What the host bus answered to the last host access. -/
inductive HostResp where
  /-- No access has been made. -/
  | none
  /-- A read returned this value. -/
  | data (v : Word)
  /-- A write completed. -/
  | ack
  /-- 20_memory.md R71: the error response to a read, with the value the read returns. -/
  | readError (v : Word)
  /-- 20_memory.md R71: the error response to a write. -/
  | writeError
  deriving DecidableEq, Repr

/-- R20: the registers of the window. -/
inductive Reg where
  | blkid | ctrl | mode | timing | cmd | status | seq | modeinfo | devinfo
  | calid | rawt | rawp | sealevelLo | sealevelHi
  | coefAc1 | coefAc2 | coefAc3 | coefAc4 | coefAc5 | coefAc6
  | coefB1 | coefB2 | coefMb | coefMc | coefMd
  | b5 | tempDc | tempLo | tempHi | up | pressPa | pressLo | pressHi | altLo | altHi
  | frame0 | frame1 | swsum | swraw | humLo | humHi | swtempLo | swtempHi | swunit
  | calbyte (i : Fin 22)
  deriving DecidableEq, Repr

/-- 43_control.md R181: the classes of operation SWCP does not have, "so that a model can refuse them by name". -/
inductive AbsentClass where
  | controlTransfer
  | vector
  | loadStore
  | system
  deriving DecidableEq, Repr

/-- What the outside world does to SWCP, one atomic event each (00_scope.md R16). An access is made at a byte offset from
`P_BASE` (R13); widths are in bytes. -/
inductive Event where
  /-- A host write access. -/
  | hostWrite (off width : Nat) (value : Word)
  /-- A host read access. -/
  | hostRead (off width : Nat)
  /-- One cycle of `clk` (60_exceptions.md R210). -/
  | clk
  /-- The host's polling loop `WAIT` (30_encoding.md R96): read STATUS until BUSY = 0. -/
  | wait
  /-- `rst_n` is driven to this level (70_reset_and_hazards.md R230). -/
  | rst (level : Level)
  /-- Power is removed and comes back with `rst_n` asserted (60_exceptions.md R214). -/
  | powerCycle
  /-- An operation of a class SWCP does not have is asked for (43_control.md R181). -/
  | absent (c : AbsentClass)
  deriving DecidableEq, Repr

/-- The whole state. -/
structure State where
  /-- The parameters of this instance (00_scope.md R5: "a named parameter that a model takes as an argument"); no step
  changes them. -/
  par : Params
  /-- The level of `rst_n`: true is deasserted (70_reset_and_hazards.md R230). -/
  rstN : Bool
  /-- The phase of the tick divider (60_exceptions.md R210). -/
  div : Nat
  host : HostRegs
  frame : Frame
  status : Status
  coef : Coefs
  eng : Engine
  temp : TempResult
  pres : PresResult
  /-- ALT, HI over LO (R50). -/
  alt : F64
  /-- SWSUM[7:0] (R52). -/
  swsum : Byte
  sw : SwResult
  /-- The answer to the last host access. -/
  resp : HostResp
  /-- The events the outside world has lined up, the next one first. -/
  inputs : List Event
  /-- The line samples the environment has lined up for the coming ticks, the next one first. -/
  lineIn : List Level
  /-- How many free line samples have been drawn. -/
  draws : Nat
  deriving DecidableEq, Repr

/-- Why a step stops with a fault. -/
inductive Fault where
  /-- Raised by a host access event whose offset is outside the 4096-byte window at P_BASE (20_memory.md R70): such an
  access never reaches SWCP. Safe: the machine stops where the hardware would not see the access. -/
  | outsideWindow (off : Nat)
  deriving DecidableEq, Repr

/-- Why a step is refused. -/
inductive Refusal where
  /-- Raised by an arm of `exec` whose instruction has no meaning yet. Safe. No arm raises it. -/
  | notModelled (mnemonic : String)
  /-- Raised by an `Event.absent`: 43_control.md R181, "A model refuses each of them by name." Safe: no command word
  and no register access asks for such an operation. -/
  | absentClass (c : AbsentClass)
  deriving DecidableEq, Repr

/-- R67: every coefficient 0. -/
def Coefs.zero : Coefs :=
  { ac1 := 0, ac2 := 0, ac3 := 0, ac4 := 0, ac5 := 0, ac6 := 0, b1 := 0, b2 := 0, mb := 0, mc := 0, md := 0 }

/-- R67: the registers only the host writes. -/
def HostRegs.reset : HostRegs :=
  { ie := false, unit := .celsius, mode := 1, startMs := 18, releaseUs := 20, waitLimit := 1000
    calid := 0, rawt := 0, rawp := 0, sealevel := 0x40F8BCD000000000, calbyte := Vector.replicate 22 0 }

/-- R67: STATUS. -/
def Status.reset : Status :=
  { busy := false, done := false, ovr := false, calValid := false, errcode := .ok, lastop := 0 }

/-- R67: "all fields 0". -/
def Snap.reset : Snap :=
  { unit := .celsius, mode := 0, startMs := 0, releaseUs := 0, waitLimit := 0, calid := 0
    calbyte := Vector.replicate 22 0, rawt := 0, rawp := 0, sealevel := 0, frame0 := 0, frame1 := 0
    coef := Coefs.zero, calValid := false }

/-- R67: seq, SEQ, cnt, bitidx, shreg, snap. The accepted word (log 3) and the sample (log 6) are the model's choice. -/
def Engine.reset : Engine :=
  { seq := .idle, endstate := .idle, cnt := 0, bitidx := 0, shreg := 0, cmd := 0, snap := Snap.reset, swI := .high }

/-- R67: the state right after reset of an instance with the parameters `p`, with nothing lined up by the outside. -/
def State.resetOf (p : Params) : State :=
  { par := p, rstN := true, div := 0, host := HostRegs.reset, frame := { frame0 := 0, frame1 := 0 }
    status := Status.reset, coef := Coefs.zero, eng := Engine.reset
    temp := { b5 := 0, tempDc := 0, temp := 0 }, pres := { up := 0, pressPa := 0, press := 0 }, alt := 0, swsum := 0
    sw := { swraw := 0, hum := 0, swtemp := 0, swunit := .celsius }
    resp := .none, inputs := [], lineIn := [], draws := 0 }

/-- The machine right after reset; its parameters are the opaque ones of Config (log 4). -/
def State.reset : State := State.resetOf Config.params

end Sys2Proof.Machine
end

