-- ==== Sys2Proof/Machine/Flags.lean ====
section
/-! DEFINITION. The flags of SWCP (10_state.md rule R66) and the codes software reads: STATUS as a word, the W1C
clears, the interrupt output and the line port. There are no arithmetic condition codes. -/

namespace Sys2Proof.Machine

/-- 60_exceptions.md R190: the numbers of the error codes. -/
def errBits : ErrCode → BitVec 4
  | .ok => 0
  | .communication => 1
  | .identityMismatch => 2
  | .invalidMode => 3
  | .checksum => 4
  | .notCalibrated => 5
  | .timeout => 6
  | .arithmetic => 7
  | .illegalCommand => 8

/-- 10_state.md R60: the numbers of the sequencer states. -/
def seqBits : Seq → BitVec 4
  | .idle => 0
  | .prep => 1
  | .startLow => 2
  | .release => 3
  | .ackLow => 4
  | .ackHigh => 5
  | .bitEdge => 6
  | .bitDelay => 7
  | .bitRestore => 8
  | .swFinish => 9
  | .compute => 10

/-- 10_state.md R23: 0 = Celsius, 1 = Fahrenheit, 2 = Kelvin. -/
def unitBits : TempUnit → BitVec 2
  | .celsius => 0
  | .fahrenheit => 1
  | .kelvin => 2

/-- STATUS as a word (10_state.md R30 to R35); bits 4..7, 12..15 and 24..31 read 0. -/
def statusWord (st : Status) : Word :=
  0#8 ++ st.lastop ++ 0#4 ++ errBits st.errcode ++ 0#4 ++ BitVec.ofBool st.calValid ++ BitVec.ofBool st.ovr
    ++ BitVec.ofBool st.done ++ BitVec.ofBool st.busy

/-- A host write of `v` to STATUS: W1C of DONE (bit 1) and OVR (bit 2), every other field is read-only
(10_state.md R31, R32, R58). -/
def statusW1C (v : Word) (st : Status) : Status :=
  { st with done := st.done && !v.getLsbD 1, ovr := st.ovr && !v.getLsbD 2 }

/-- 60_exceptions.md R194: the flags at acceptance of the word `w`. ERRCODE, OVR and CAL_VALID are kept. -/
def statusAccept (w : Word) (st : Status) : Status :=
  { st with busy := true, done := false, lastop := w.extractLsb' 0 8 }

/-- 60_exceptions.md R196: the flags at a commit. -/
def statusCommit (code : ErrCode) (st : Status) : Status :=
  { st with errcode := code, done := true, busy := false }

/-- 60_exceptions.md R195: the only effect of a dropped word. -/
def statusDrop (st : Status) : Status := { st with ovr := true }

/-- 60_exceptions.md R205: `irq = CTRL.IE AND STATUS.DONE`, a level. -/
def irq (s : State) : Bool := s.host.ie && s.status.done

/-- 10_state.md R64: `sw_oe` is 1 only in PREP, START_LOW and RELEASE. -/
def swOe (s : State) : Bool :=
  match s.eng.seq with
  | .prep | .startLow | .release => true
  | .idle | .ackLow | .ackHigh | .bitEdge | .bitDelay | .bitRestore | .swFinish | .compute => false

/-- 10_state.md R64: `sw_o` is Low only in START_LOW. -/
def swO (s : State) : Level :=
  match s.eng.seq with
  | .startLow => .low
  | .idle | .prep | .release | .ackLow | .ackHigh | .bitEdge | .bitDelay | .bitRestore | .swFinish | .compute => .high

end Sys2Proof.Machine
end

