-- ==== Sys2Proof/Machine/Arith.lean ====
section
/-! DEFINITION. The integer primitives of 00_scope.md rules R10 and R11. Integer values are mathematical integers,
narrowed explicitly: every operation of the pipeline computes exactly and then wraps (41_compensation.md R120). -/

namespace Sys2Proof.Machine

/-- R10: the unique value in [-2^31, 2^31) congruent to `v` mod 2^32. -/
def s32 (v : Int) : Int := Int.bmod v 4294967296

/-- R10: `v mod 2^32`, a value in [0, 2^32). -/
def u32 (v : Int) : Int := v % 4294967296

/-- R10: a 16-bit pattern read as two's complement. -/
def s16 (h : BitVec 16) : Int := h.toInt

/-- R10: a 16-bit pattern read as an unsigned number. -/
def u16 (h : BitVec 16) : Int := h.toNat

/-- R11: the integer quotient truncated toward zero. -/
def tdiv (a b : Int) : Int := Int.tdiv a b

/-- R11: the quotient rounded toward minus infinity (for b > 0). -/
def fdiv (a b : Int) : Int := a / b

/-- R11: the quotient of unsigned values, floor(a / b) (for b > 0). -/
def udiv (a b : Int) : Int := a / b

/-- R11: arithmetic shift right of an s32 value, `fdiv(v, 2^n)`. -/
def asr (v : Int) (n : Nat) : Int := fdiv v (2 ^ n)

/-- R11: `shl32(v, n) = s32(v · 2^n)`. -/
def shl32 (v : Int) (n : Nat) : Int := s32 (v * 2 ^ n)

end Sys2Proof.Machine
end

