-- ==== Sys2Proof/Machine/Operands.lean ====
section
/-! DEFINITION. Operand assembly (30_encoding.md rule R94): the snapshot of acceptance, how each coefficient and each
operand register is read, the frame bytes, and the modes. -/

namespace Sys2Proof.Machine

/-- The level as a bit: Low = 0 and High = 1 (00_scope.md R14). -/
def levelBit : Level → BitVec 1
  | .low => 0
  | .high => 1

/-- 10_state.md R63: what acceptance copies. -/
def snapshot (s : State) : Snap :=
  { unit := s.host.unit, mode := s.host.mode, startMs := s.host.startMs, releaseUs := s.host.releaseUs
    waitLimit := s.host.waitLimit, calid := s.host.calid, calbyte := s.host.calbyte, rawt := s.host.rawt
    rawp := s.host.rawp, sealevel := s.host.sealevel, frame0 := s.frame.frame0, frame1 := s.frame.frame1
    coef := s.coef, calValid := s.status.calValid }

/-! 10_state.md R43: each coefficient as a number, sign-extended or zero-extended. MB is read by no rule of the pipeline
(decision D50); its register read is in Machine/Ops.lean. -/

def coefAC1 (c : Coefs) : Int := s16 c.ac1
def coefAC2 (c : Coefs) : Int := s16 c.ac2
def coefAC3 (c : Coefs) : Int := s16 c.ac3
def coefAC4 (c : Coefs) : Int := u16 c.ac4
def coefAC5 (c : Coefs) : Int := u16 c.ac5
def coefAC6 (c : Coefs) : Int := u16 c.ac6
def coefB1 (c : Coefs) : Int := s16 c.b1
def coefB2 (c : Coefs) : Int := s16 c.b2
def coefMC (c : Coefs) : Int := s16 c.mc
def coefMD (c : Coefs) : Int := s16 c.md

/-- 10_state.md R40: `UT = zext_32(RAWT[15:0])`. -/
def operandUT (sn : Snap) : Int := sn.rawt.toNat

/-- 41_compensation.md R130: `UP = zext_32(RAWP[23:0]) >> (8 - oss)`, a logical shift. -/
def operandUP (sn : Snap) (oss : Nat) : Nat := sn.rawp.toNat >>> (8 - oss)

/-- 10_state.md R25: a mode value 0..3 is valid. -/
def modeValid (mode : Byte) : Bool := mode.toNat ≤ 3

/-- 41_compensation.md R136: `oss <- snap.MODE[1:0]`, read only when the mode is valid. -/
def operandOss (sn : Snap) : Nat := (sn.mode.extractLsb' 0 2).toNat

/-- 40_calibration.md R110, R111: coefficient k is `{CALBYTE[2k], CALBYTE[2k+1]}`, the first byte high. -/
def calPair (b : Vector Byte 22) (k : Fin 11) : BitVec 16 :=
  b[2 * k.val]'(by omega) ++ b[2 * k.val + 1]'(by omega)

/-- 40_calibration.md R110, R111: the decode of the 22 bytes, in the order AC1, AC2, AC3, AC4, AC5, AC6, B1, B2, MB,
MC, MD. A pure function of the bytes. -/
def calDecode (b : Vector Byte 22) : Coefs :=
  { ac1 := calPair b 0, ac2 := calPair b 1, ac3 := calPair b 2, ac4 := calPair b 3, ac5 := calPair b 4
    ac6 := calPair b 5, b1 := calPair b 6, b2 := calPair b 7, mb := calPair b 8, mc := calPair b 9
    md := calPair b 10 }

/-! The frame bytes of FRAME0 = `{F0, F1, F2, F3}` (10_state.md R51). -/

def frameF0 (frame0 : Word) : Byte := frame0.extractLsb' 24 8
def frameF1 (frame0 : Word) : Byte := frame0.extractLsb' 16 8
def frameF2 (frame0 : Word) : Byte := frame0.extractLsb' 8 8
def frameF3 (frame0 : Word) : Byte := frame0.extractLsb' 0 8

/-- 42_singlewire.md R162: `HUM_RAW <- {F0, F1}`. -/
def humRaw (frame0 : Word) : BitVec 16 := frameF0 frame0 ++ frameF1 frame0

/-- 42_singlewire.md R162: `TEMP_RAW <- {F2, F3}`. -/
def tempRaw (frame0 : Word) : BitVec 16 := frameF2 frame0 ++ frameF3 frame0

/-- 42_singlewire.md R160: FRAME0 from the 40 received bits, `{F0, F1, F2, F3}` = shreg[39:8]. -/
def shregFrame0 (shreg : BitVec 40) : Word :=
  shreg.extractLsb' 32 8 ++ shreg.extractLsb' 24 8 ++ shreg.extractLsb' 16 8 ++ shreg.extractLsb' 8 8

/-- 42_singlewire.md R160: `F4 <- shreg[7:0]`. -/
def shregF4 (shreg : BitVec 40) : Byte := shreg.extractLsb' 0 8

/-- 42_singlewire.md R153: `shreg <- {shreg[38:0], l}`. -/
def shiftIn (shreg : BitVec 40) (l : Level) : BitVec 40 := shreg.extractLsb' 0 39 ++ levelBit l

/-! The WARL fields of 10_state.md R23, R26 and R27. -/

/-- R23: a written unit, 3 leaving the field unchanged. -/
def warlUnit (old : TempUnit) (v : BitVec 2) : TempUnit :=
  if v = 0 then .celsius else if v = 1 then .fahrenheit else if v = 2 then .kelvin else old

/-- R26: a write of v stores max(v, 18). -/
def warlStartMs (v : Byte) : Byte := if v.toNat < 18 then 18 else v

/-- R27: a write of v stores min(max(v, 20), 40). -/
def warlReleaseUs (v : Byte) : Byte := if v.toNat < 20 then 20 else if 40 < v.toNat then 40 else v

end Sys2Proof.Machine
end

