-- ==== Sys2Proof/Machine/Ops.lean ====
section
/-! DEFINITION. The shared operations: the register window (10_state.md rules R20 to R58), the life of a command
(60_exceptions.md rules R194 to R198), reporting an error, the engine's counters, and reset. -/

namespace Sys2Proof.Machine

/-! ## The parameters (00_scope.md R5) -/

/-- `P_BASE`, 4 KiB aligned. -/
def paramBase (p : Params) : Nat := 4096 * p.basePage

/-- `P_CLK_PER_TICK`, at least 1. -/
def paramClkPerTick (p : Params) : Nat := p.clkPerTickPred + 1

/-- `P_COMP_LATENCY`, at least 1. -/
def paramCompLatency (p : Params) : Nat := p.lastCompTick.toNat + 1

/-! ## The register window -/

/-- 10_state.md R20: the offset of each register. -/
def regOffset : Reg → Nat
  | .blkid => 0x000
  | .ctrl => 0x004
  | .mode => 0x008
  | .timing => 0x00C
  | .cmd => 0x010
  | .status => 0x014
  | .seq => 0x018
  | .modeinfo => 0x01C
  | .devinfo => 0x020
  | .calid => 0x024
  | .rawt => 0x028
  | .rawp => 0x02C
  | .sealevelLo => 0x030
  | .sealevelHi => 0x034
  | .coefAc1 => 0x040
  | .coefAc2 => 0x044
  | .coefAc3 => 0x048
  | .coefAc4 => 0x04C
  | .coefAc5 => 0x050
  | .coefAc6 => 0x054
  | .coefB1 => 0x058
  | .coefB2 => 0x05C
  | .coefMb => 0x060
  | .coefMc => 0x064
  | .coefMd => 0x068
  | .b5 => 0x080
  | .tempDc => 0x084
  | .tempLo => 0x088
  | .tempHi => 0x08C
  | .up => 0x090
  | .pressPa => 0x094
  | .pressLo => 0x098
  | .pressHi => 0x09C
  | .altLo => 0x0A0
  | .altHi => 0x0A4
  | .frame0 => 0x0C0
  | .frame1 => 0x0C4
  | .swsum => 0x0C8
  | .swraw => 0x0CC
  | .humLo => 0x0D0
  | .humHi => 0x0D4
  | .swtempLo => 0x0D8
  | .swtempHi => 0x0DC
  | .swunit => 0x0E0
  | .calbyte i => 0x100 + 4 * i.val

/-- The registers below 0x040, in the order of R20. -/
def controlRegs : List Reg :=
  [.blkid, .ctrl, .mode, .timing, .cmd, .status, .seq, .modeinfo, .devinfo, .calid, .rawt, .rawp, .sealevelLo,
    .sealevelHi]

/-- The coefficient and compensation result registers, 0x040 to 0x0A4. -/
def pipelineRegs : List Reg :=
  [.coefAc1, .coefAc2, .coefAc3, .coefAc4, .coefAc5, .coefAc6, .coefB1, .coefB2, .coefMb, .coefMc, .coefMd, .b5,
    .tempDc, .tempLo, .tempHi, .up, .pressPa, .pressLo, .pressHi, .altLo, .altHi]

/-- The frame and single-wire result registers, 0x0C0 to 0x0E0. -/
def wireRegs : List Reg :=
  [.frame0, .frame1, .swsum, .swraw, .humLo, .humHi, .swtempLo, .swtempHi, .swunit]

/-- The registers below the calibration bytes. -/
def plainRegs : List Reg := controlRegs ++ (pipelineRegs ++ wireRegs)

/-- The register at an offset; none where no row of R20 names it (R58). -/
def regAt (off : Nat) : Option Reg :=
  if h : 0x100 ≤ off ∧ off ≤ 0x154 ∧ off % 4 = 0 then some (.calbyte ⟨(off - 0x100) / 4, by omega⟩)
  else plainRegs.find? (fun r => regOffset r == off)

/-- The low word of a binary64 value, at the lower offset (20_memory.md R74). -/
def loWord (x : F64) : Word := x.extractLsb' 0 32

/-- The high word of a binary64 value. -/
def hiWord (x : F64) : Word := x.extractLsb' 32 32

/-- 10_state.md R37: the pressure settling delay in ms, 0 for an invalid mode. -/
def modeDelayMs (mode : Byte) : Byte :=
  if mode = 0 then 5 else if mode = 1 then 8 else if mode = 2 then 14 else if mode = 3 then 26 else 0

/-- 10_state.md R37: `(P_PRESS_CMD_BASE + (MODE << 6)) mod 256`, 0 for an invalid mode. -/
def modePcmd (p : Params) (mode : Byte) : Byte := if modeValid mode then p.pressCmdBase + (mode <<< 6) else 0

/-- 10_state.md R37: MODEINFO, a pure function of MODE. -/
def modeinfoWord (p : Params) (mode : Byte) : Word :=
  5#8 ++ modePcmd p mode ++ modeDelayMs mode ++ 0#7 ++ BitVec.ofBool (modeValid mode)

/-- 10_state.md R38: `{0x00, P_PRESS_CMD_BASE, P_TEMP_CMD, P_EXPECTED_ID}`. -/
def devinfoWord (p : Params) : Word := 0#8 ++ p.pressCmdBase ++ p.tempCmd ++ p.expectedId

/-- 10_state.md R22 to R24. -/
def ctrlWord (h : HostRegs) : Word := 0#29 ++ unitBits h.unit ++ BitVec.ofBool h.ie

/-- 10_state.md R26 to R28. -/
def timingWord (h : HostRegs) : Word := h.waitLimit ++ h.releaseUs ++ h.startMs

/-- 10_state.md R36. -/
def seqWord (e : Engine) : Word := 0#18 ++ BitVec.ofNat 6 e.bitidx ++ seqBits e.endstate ++ seqBits e.seq

/-- A host read of a register (10_state.md R20 to R57). No read has a side effect (20_memory.md R73). -/
def readReg (r : Reg) (s : State) : Word :=
  match r with
  | .blkid => 0x53574350
  | .ctrl => ctrlWord s.host
  | .mode => s.host.mode.setWidth 32
  | .timing => timingWord s.host
  | .cmd => 0
  | .status => statusWord s.status
  | .seq => seqWord s.eng
  | .modeinfo => modeinfoWord s.par s.host.mode
  | .devinfo => devinfoWord s.par
  | .calid => s.host.calid.setWidth 32
  | .rawt => s.host.rawt.setWidth 32
  | .rawp => s.host.rawp.setWidth 32
  | .sealevelLo => loWord s.host.sealevel
  | .sealevelHi => hiWord s.host.sealevel
  | .coefAc1 => s.coef.ac1.signExtend 32
  | .coefAc2 => s.coef.ac2.signExtend 32
  | .coefAc3 => s.coef.ac3.signExtend 32
  | .coefAc4 => s.coef.ac4.setWidth 32
  | .coefAc5 => s.coef.ac5.setWidth 32
  | .coefAc6 => s.coef.ac6.setWidth 32
  | .coefB1 => s.coef.b1.signExtend 32
  | .coefB2 => s.coef.b2.signExtend 32
  | .coefMb => s.coef.mb.signExtend 32
  | .coefMc => s.coef.mc.signExtend 32
  | .coefMd => s.coef.md.signExtend 32
  | .b5 => s.temp.b5
  | .tempDc => s.temp.tempDc
  | .tempLo => loWord s.temp.temp
  | .tempHi => hiWord s.temp.temp
  | .up => s.pres.up
  | .pressPa => s.pres.pressPa
  | .pressLo => loWord s.pres.press
  | .pressHi => hiWord s.pres.press
  | .altLo => loWord s.alt
  | .altHi => hiWord s.alt
  | .frame0 => s.frame.frame0
  | .frame1 => s.frame.frame1.setWidth 32
  | .swsum => s.swsum.setWidth 32
  | .swraw => s.sw.swraw
  | .humLo => loWord s.sw.hum
  | .humHi => hiWord s.sw.hum
  | .swtempLo => loWord s.sw.swtemp
  | .swtempHi => hiWord s.sw.swtemp
  | .swunit => (unitBits s.sw.swunit).setWidth 32
  | .calbyte i => (s.host.calbyte[i.val]'i.isLt).setWidth 32

/-- What a host read of an aligned word at an offset returns; an unlisted offset reads 0 (10_state.md R58). -/
def readOffset (off : Nat) (s : State) : Word :=
  match regAt off with
  | some r => readReg r s
  | none => 0

/-- The effect of a host write on the registers only the host writes. -/
def writeHostRegs (r : Reg) (v : Word) (h : HostRegs) : HostRegs :=
  match r with
  | .ctrl => { h with ie := v.getLsbD 0, unit := warlUnit h.unit (v.extractLsb' 1 2) }
  | .mode => { h with mode := v.extractLsb' 0 8 }
  | .timing =>
    { h with
      startMs := warlStartMs (v.extractLsb' 0 8)
      releaseUs := warlReleaseUs (v.extractLsb' 8 8)
      waitLimit := v.extractLsb' 16 16 }
  | .calid => { h with calid := v.extractLsb' 0 8 }
  | .rawt => { h with rawt := v.extractLsb' 0 16 }
  | .rawp => { h with rawp := v.extractLsb' 0 24 }
  | .sealevelLo => { h with sealevel := hiWord h.sealevel ++ v }
  | .sealevelHi => { h with sealevel := v ++ loWord h.sealevel }
  | .calbyte i => { h with calbyte := h.calbyte.set i.val (v.extractLsb' 0 8) i.isLt }
  | _ => h

/-- The effect of a host write on the frame registers (10_state.md R51). -/
def writeFrame (r : Reg) (v : Word) (f : Frame) : Frame :=
  match r with
  | .frame0 => { f with frame0 := v }
  | .frame1 => { f with frame1 := v.extractLsb' 0 8 }
  | _ => f

/-- A host write to a register other than CMD: a read/write register stores its (legal) value, STATUS has its W1C bits,
and a read-only register ignores it (10_state.md R20, R58; 20_memory.md R73). A write takes effect at once, while a
command runs too (60_exceptions.md R209). CMD is Machine/Engine.lean's. -/
def writeReg (r : Reg) (v : Word) (s : State) : State :=
  { s with
    host := writeHostRegs r v s.host
    frame := writeFrame r v s.frame
    status := if r = .status then statusW1C v s.status else s.status }

/-! ## The life of a command -/

/-- 60_exceptions.md R194: acceptance of the word `w`, legal or not, at the instant of the CMD write. -/
def accept (w : Word) (s : State) : State :=
  if w = 0x00000010 then
    { s with
      status := statusAccept w s.status
      eng := { s.eng with seq := .prep, cnt := 0, bitidx := 0, shreg := 0, cmd := w, snap := snapshot s } }
  else
    { s with
      status := statusAccept w s.status
      eng := { s.eng with seq := .compute, cnt := 0, cmd := w, snap := snapshot s } }

/-- 60_exceptions.md R195: a word written while BUSY = 1 is dropped; "nothing else changes". -/
def dropCommand (s : State) : State := { s with status := statusDrop s.status }

/-- 60_exceptions.md R196: the commit, after the result registers of the command's rule are written. -/
def commit (code : ErrCode) (s : State) : State :=
  { s with status := statusCommit code s.status, eng := { s.eng with seq := .idle, cnt := 0 } }

/-- 60_exceptions.md R196, R201: `raise Error(code)`, SWCP's taking of an exception. The command commits with that code:
no state is saved to a save register, there is no mode, no mask and no vector, the engine goes to IDLE, and the only
other writes are those the command's rule lists before it raises. The return from it (R202) is no operation: SWCP is
IDLE and `accept` takes the next command. -/
def raise (code : ErrCode) (s : State) : State := commit code s

/-- 10_state.md R61: "Every tick that stays in the same state adds 1." -/
def count (s : State) : State := { s with eng := { s.eng with cnt := s.eng.cnt + 1 } }

/-- 10_state.md R61: a state change sets `cnt` to 0. -/
def goto (q : Seq) (s : State) : State := { s with eng := { s.eng with seq := q, cnt := 0 } }

/-- 60_exceptions.md R198: an accepted illegal word commits at tick 0 with ERRCODE 8 and writes nothing else. -/
def illegalTick (s : State) : State := raise .illegalCommand s

/-- What a command does at its next event: at the CMD write that accepts it (BUSY = 0, 60_exceptions.md R194), or at one
engine tick while it is in flight (BUSY = 1). `w` is its word and `tick` its rule for one tick. -/
def commandStep (w : Word) (tick : State → State) (s : State) : State :=
  if s.status.busy then tick s else accept w s

/-- 60_exceptions.md R197: one COMPUTE tick of a command whose rule is performed, with its commit, at tick
`P_COMP_LATENCY - 1`. -/
def computeTick (rule : State → State) (s : State) : State :=
  if s.eng.cnt.toNat + 1 = paramCompLatency s.par then rule s else count s

/-! ## Reset (70_reset_and_hazards.md R230) -/

/-- While `rst_n` = 0 every piece of state holds its reset value; a command in flight is abandoned. What the outside
world has lined up, and the bus's last answer, are not SWCP's state. -/
def holdReset (s : State) : State :=
  { State.resetOf s.par with
    rstN := false, resp := s.resp, inputs := s.inputs, lineIn := s.lineIn, draws := s.draws }

/-- `rst_n` is driven to a level. -/
def driveRst (l : Level) (s : State) : State :=
  match l with
  | .low => holdReset s
  | .high => { s with rstN := true }

/-! ## The environment -/

/-- The sample the engine takes at this tick, `line(t)`: the next listed one, else a free draw (00_scope.md R8,
log 5). -/
def sampleLine (s : State) : State :=
  match s.lineIn with
  | l :: rest => { s with eng := { s.eng with swI := l }, lineIn := rest }
  | [] => { s with eng := { s.eng with swI := Config.line s.draws }, draws := s.draws + 1 }

end Sys2Proof.Machine
end

