-- ==== Sys2Proof/Machine/Calibration.lean ====
section
/-! DEFINITION. The calibration store, CAL_LOAD (40_calibration.md rules R110 to R113). -/

namespace Sys2Proof.Machine

/-- R110: the identity check and the decode, a function of the snapshot and P_EXPECTED_ID. -/
def calResult (expectedId : Byte) (sn : Snap) : Except ErrCode Coefs :=
  if sn.calid = expectedId then .ok (calDecode sn.calbyte) else .error .identityMismatch

/-- R110: the commit of CAL_LOAD. On an error no coefficient and no CAL_VALID is written. -/
def calLoadCommit (s : State) : State :=
  match calResult s.par.expectedId s.eng.snap with
  | .error e => raise e s
  | .ok c => commit .ok { s with coef := c, status := { s.status with calValid := true } }

/-- CAL_LOAD, 40_calibration.md R110. -/
def execCalLoad (s : State) : Host.Outcome State Fault Refusal :=
  .next (commandStep (encode .calLoad) (computeTick calLoadCommit) s)

end Sys2Proof.Machine
end

