-- ==== Sys2Proof/Machine/Compensation.lean ====
section
/-! DEFINITION. The compensation pipeline: TEMP_COMP, PRES_COMP and ALT_COMP (41_compensation.md rules R120 to R144).
Every intermediate is written with the operation order, the widths and the truncation of the rule. -/

namespace Sys2Proof.Machine

/-! ## The stages -/

/-- R125: `x1 = (raw_temp - AC6) * AC5 / 2^15`. -/
def tempX1 (ut : Int) (c : Coefs) : Int := tdiv (s32 (s32 (ut - coefAC6 c) * coefAC5 c)) 32768

/-- R125: the temperature stage `TSTAGE(UT, c)`: b5, or ArithmeticError when `x1 + MD` is 0. -/
def tempStage (ut : Int) (c : Coefs) : Except ErrCode Int :=
  let x1 := tempX1 ut c
  let d := s32 (x1 + coefMD c)
  if d = 0 then .error .arithmetic
  else
    let x2 := tdiv (s32 (coefMC c * 2048)) d
    .ok (s32 (x1 + x2))

/-- R126: `TEMP_DC <- asr(s32(b5 + 8), 4)`, the explicit floor (90_conflicts.md C7). -/
def tempDcOf (b5 : Int) : Int := asr (s32 (b5 + 8)) 4

/-- R126: B5, TEMP_DC and TEMP. -/
def tempResultOf (b5 : Int) : TempResult :=
  { b5 := BitVec.ofInt 32 b5
    tempDc := BitVec.ofInt 32 (tempDcOf b5)
    temp := f64Div (f64OfInt (tempDcOf b5)) f64Ten }

/-- R131: the outcome of part 1 of the pressure stage. -/
structure PressPart1 where
  b3 : Int
  b4 : Int
  b7 : Int
  deriving DecidableEq, Repr

/-- R131: `SQ = b6^2 / 2^12`. -/
def pressSq (b6 : Int) : Int := tdiv (s32 (b6 * b6)) 4096

/-- R131: `b3 = (((AC1*4 + x3) << mode) + 2) / 4`. -/
def pressB3 (c : Coefs) (b6 : Int) (oss : Nat) : Int :=
  let x1 := tdiv (s32 (coefB2 c * pressSq b6)) 2048
  let x2 := tdiv (s32 (coefAC2 c * b6)) 2048
  let x3 := s32 (x1 + x2)
  tdiv (s32 (shl32 (s32 (s32 (coefAC1 c * 4) + x3)) oss + 2)) 4

/-- R131: `b4 = AC4 * (x3 + 32768) / 2^15`, unsigned. -/
def pressB4 (c : Coefs) (b6 : Int) : Int :=
  let x1 := tdiv (s32 (coefAC3 c * b6)) 8192
  let x2 := tdiv (s32 (coefB1 c * pressSq b6)) 65536
  let x3 := tdiv (s32 (s32 (x1 + x2) + 2)) 4
  udiv (u32 (coefAC4 c * u32 (x3 + 32768))) 32768

/-- R131: part 1, from b5, UP, oss and the coefficients. -/
def pressPart1 (c : Coefs) (b5 : Int) (up : Int) (oss : Nat) : PressPart1 :=
  let b6 := s32 (b5 - 4000)
  let b3 := pressB3 c b6 oss
  { b3 := b3, b4 := pressB4 c b6, b7 := u32 (u32 (up - b3) * ((50000 >>> oss : Nat) : Int)) }

/-- R132: the two arms of the b7 branch, "different functions", by b7's unsigned magnitude. -/
def pressQuotient (b4 b7 : Int) : Int :=
  if b7 < 0x80000000 then udiv (u32 (b7 * 2)) b4 else u32 (udiv b7 b4 * 2)

/-- R132: the final correction of the pressure `p0 = s32(q)`. -/
def pressCorrect (p0 : Int) : Int :=
  let x1 := s32 (tdiv p0 256 * tdiv p0 256)
  let x1 := tdiv (s32 (x1 * 3038)) 65536
  let x2 := tdiv (s32 (-7357 * p0)) 65536
  s32 (p0 + tdiv (s32 (s32 (x1 + x2) + 3791)) 16)

/-- R132: part 2, the pressure in Pa, or ArithmeticError when b4 is 0. -/
def pressPart2 (b4 b7 : Int) : Except ErrCode Int :=
  if b4 = 0 then .error .arithmetic else .ok (pressCorrect (s32 (pressQuotient b4 b7)))

/-- What PRES_COMP computes (R136). -/
structure PressOut where
  b5 : Int
  up : Nat
  p : Int
  deriving DecidableEq, Repr

/-- R47 to R49 and R132: UP, PRESS_PA and PRESS (exact). -/
def presResultOf (o : PressOut) : PresResult :=
  { up := BitVec.ofNat 32 o.up, pressPa := BitVec.ofInt 32 o.p, press := f64OfInt o.p }

/-- R140: the altitude function `ALT(p, ref)` under a power function; each operation rounds once, in this order.
DESIGN CHOICE (log 22): at an infinite `ref` of the other sign than `p`, where R142's corner sentences name a NaN and R140
with R123 gives qf = -0.0, the model follows R140. (Log 21: `p` = 0 with a zero `ref`; log 7: a base of -infinity.) -/
def altitude (pow : F64 → F64 → F64) (p : Int) (ref : F64) : F64 :=
  let x := f64OfInt p
  let qf := f64Div x ref
  let e := f64Div f64One f64AltDivisor
  let r := pow qf e
  let d := f64Sub f64One r
  f64Canon (f64Mul f64AltScale d)

/-! ## The commands, as functions of the snapshot -/

/-- R134, R135: TEMP_COMP's checks in their order, and b5. -/
def tempCompResult (sn : Snap) : Except ErrCode Int :=
  if sn.calValid then tempStage (operandUT sn) sn.coef else .error .notCalibrated

/-- R134, R136: PRES_COMP's checks in their order, and its values. It never reads the B5 register (R133). -/
def presCompResult (sn : Snap) : Except ErrCode PressOut :=
  if !sn.calValid then .error .notCalibrated
  else if !modeValid sn.mode then .error .invalidMode
  else
    match tempStage (operandUT sn) sn.coef with
    | .error e => .error e
    | .ok b5 =>
      let oss := operandOss sn
      let up := operandUP sn oss
      let part1 := pressPart1 sn.coef b5 up oss
      match pressPart2 part1.b4 part1.b7 with
      | .error e => .error e
      | .ok p => .ok { b5 := b5, up := up, p := p }

/-! ## The commits: on an error no result register changes (R135, R136, R142) -/

/-- R135. -/
def tempCompCommit (s : State) : State :=
  match tempCompResult s.eng.snap with
  | .error e => raise e s
  | .ok b5 => commit .ok { s with temp := tempResultOf b5 }

/-- R136. -/
def presCompCommit (s : State) : State :=
  match presCompResult s.eng.snap with
  | .error e => raise e s
  | .ok o => commit .ok { s with temp := tempResultOf o.b5, pres := presResultOf o }

/-- R142: PRES_COMP's results and ALT; the errors are exactly those of PRES_COMP. -/
def altCompCommit (s : State) : State :=
  match presCompResult s.eng.snap with
  | .error e => raise e s
  | .ok o =>
    commit .ok
      { s with
        temp := tempResultOf o.b5
        pres := presResultOf o
        alt := altitude Config.pow.fn o.p s.eng.snap.sealevel }

/-- TEMP_COMP, 41_compensation.md R135. -/
def execTempComp (s : State) : Host.Outcome State Fault Refusal :=
  .next (commandStep (encode .tempComp) (computeTick tempCompCommit) s)

/-- PRES_COMP, 41_compensation.md R136. -/
def execPresComp (s : State) : Host.Outcome State Fault Refusal :=
  .next (commandStep (encode .presComp) (computeTick presCompCommit) s)

/-- ALT_COMP, 41_compensation.md R142. -/
def execAltComp (s : State) : Host.Outcome State Fault Refusal :=
  .next (commandStep (encode .altComp) (computeTick altCompCommit) s)

end Sys2Proof.Machine
end

