-- ==== Sys2Proof/Machine/Control.lean ====
section
/-! DEFINITION. The control command NOP (43_control.md rule R180). -/

namespace Sys2Proof.Machine

/-- R180: "commit with ERRCODE = 0", at the first tick whatever P_COMP_LATENCY is. -/
def nopTick (s : State) : State := commit .ok s

/-- NOP, 43_control.md R180. -/
def execNop (s : State) : Host.Outcome State Fault Refusal :=
  .next (commandStep (encode .nop) nopTick s)

end Sys2Proof.Machine
end

