-- ==== Sys2Proof/Machine/SingleWire.lean ====
section
/-! DEFINITION. The single-wire protocol decoder: SW_READ, one phase step per tick, and SW_CHECK
(42_singlewire.md rules R150 to R167). -/

namespace Sys2Proof.Machine

/-! ## Checksum and conversion -/

/-- R161: `SUM = (F0 + F1 + F2 + F3) mod 256`, an additive sum and not a CRC. -/
def checksum (frame0 : Word) : Byte := frameF0 frame0 + frameF1 frame0 + frameF2 frame0 + frameF3 frame0

/-- R162 and R163: a raw 16-bit value divided by 10, in binary64; no bit is a sign. -/
def tenths (raw : BitVec 16) : F64 := f64Div (f64OfInt raw.toNat) f64Ten

/-- R162 and R164: the temperature in the unit; Fahrenheit is one fused multiply-add. -/
def convertTemp (unit : TempUnit) (raw : BitVec 16) : F64 :=
  match unit with
  | .celsius => tenths raw
  | .fahrenheit => f64Fma (tenths raw) f64OnePointEight f64ThirtyTwo
  | .kelvin => f64Add (tenths raw) f64KelvinOffset

/-- R162: `CONVERT(F0..F3, unit)` with SWRAW and SWUNIT. -/
def convert (unit : TempUnit) (frame0 : Word) : SwResult :=
  { swraw := humRaw frame0 ++ tempRaw frame0
    hum := tenths (humRaw frame0)
    swtemp := convertTemp unit (tempRaw frame0)
    swunit := unit }

/-- R161, R166, R167: SWSUM is written whatever the outcome; a mismatch raises ChecksumError with no other write; a
match writes SWRAW, HUM, SWTEMP and SWUNIT. The end SW_READ and SW_CHECK share. -/
def checkAndConvert (frame0 : Word) (f4 : Byte) (s : State) : State :=
  let s1 := { s with swsum := checksum frame0 }
  if checksum frame0 = f4 then commit .ok { s1 with sw := convert s.eng.snap.unit frame0 }
  else raise .checksum s1

/-! ## The phases of SW_READ -/

/-- R151: START_MS × 1000 ticks. -/
def startTicks (sn : Snap) : Nat := sn.startMs.toNat * 1000

/-- R151: a phase of a fixed number of ticks, then the next state. -/
def fixedPhase (ticks : Nat) (next : Seq) (s : State) : State :=
  if s.eng.cnt.toNat + 1 = ticks then goto next s else count s

/-- R156: a level wait times out. Only the SEQ fields are written: ENDSTATE takes the waiting state, BITIDX is kept. -/
def timeoutWait (s : State) : State :=
  raise .timeout { s with eng := { s.eng with endstate := s.eng.seq } }

/-- R155: `WAITSTEP(v, next)`, where `advance` is what happens at the tick that sees the level. -/
def levelWait (v : Level) (advance : State → State) (s : State) : State :=
  if s.eng.swI = v then advance s
  else if s.eng.snap.waitLimit ≠ 0 ∧ s.eng.cnt.toNat + 1 = s.eng.snap.waitLimit.toNat then timeoutWait s
  else count s

/-- R153: BIT_DELAY, which samples at te + 40 (cnt = 39) and does not examine the line before. -/
def bitDelayTick (s : State) : State :=
  if s.eng.cnt = 39 then goto .bitRestore { s with eng := { s.eng with shreg := shiftIn s.eng.shreg s.eng.swI } }
  else count s

/-- R154: the end of a bit. -/
def bitDone (s : State) : State :=
  goto (if s.eng.bitidx + 1 = 40 then .swFinish else .bitEdge)
    { s with eng := { s.eng with bitidx := s.eng.bitidx + 1 } }

/-- R160, R166: SW_FINISH. FRAME0, FRAME1, SWSUM and ENDSTATE are written whatever the checksum outcome. -/
def swFinish (s : State) : State :=
  let f0 := shregFrame0 s.eng.shreg
  let f4 := shregF4 s.eng.shreg
  checkAndConvert f0 f4
    { s with frame := { frame0 := f0, frame1 := f4 }, eng := { s.eng with endstate := .swFinish } }

/-- R166: one tick of SW_READ by phase. IDLE and COMPUTE are never the state of a SW_READ in flight (R194). -/
def swReadTick (s : State) : State :=
  match s.eng.seq with
  | .prep => goto .startLow s
  | .startLow => fixedPhase (startTicks s.eng.snap) .release s
  | .release => fixedPhase s.eng.snap.releaseUs.toNat .ackLow s
  | .ackLow => levelWait .low (goto .ackHigh) s
  | .ackHigh => levelWait .high (goto .bitEdge) s
  | .bitEdge => levelWait .low (goto .bitDelay) s
  | .bitDelay => bitDelayTick s
  | .bitRestore => levelWait .high bitDone s
  | .swFinish => swFinish s
  | .idle => count s
  | .compute => count s

/-- R167: SW_CHECK's commit, on the snapshot's frame. It writes neither FRAME0/1 nor the SEQ fields. -/
def swCheckCommit (s : State) : State := checkAndConvert s.eng.snap.frame0 s.eng.snap.frame1 s

/-- SW_READ, 42_singlewire.md R166. -/
def execSwRead (s : State) : Host.Outcome State Fault Refusal :=
  .next (commandStep (encode .swRead) swReadTick s)

/-- SW_CHECK, 42_singlewire.md R167. -/
def execSwCheck (s : State) : Host.Outcome State Fault Refusal :=
  .next (commandStep (encode .swCheck) (computeTick swCheckCommit) s)

end Sys2Proof.Machine
end

