-- ==== Sys2Proof/Machine/Dispatch.lean ====
section
/-! DEFINITION. One arm per command (30_encoding.md rule R91). `exec i s` is what command i does at its next event:
its acceptance when BUSY = 0, one engine tick of it when BUSY = 1 (log 2). -/

namespace Sys2Proof.Machine

def exec (i : Instr) (s : State) : Host.Outcome State Fault Refusal :=
  match i with
  | .nop => Sys2Proof.Machine.execNop s
  | .calLoad => Sys2Proof.Machine.execCalLoad s
  | .tempComp => Sys2Proof.Machine.execTempComp s
  | .presComp => Sys2Proof.Machine.execPresComp s
  | .altComp => Sys2Proof.Machine.execAltComp s
  | .swRead => Sys2Proof.Machine.execSwRead s
  | .swCheck => Sys2Proof.Machine.execSwCheck s

end Sys2Proof.Machine
end

