-- ==== Sys2Proof/Machine/Engine.lean ====
section
/-! DEFINITION. The events: an engine tick, a clock cycle, a host access, the reset pin (00_scope.md rules R8, R13,
R16; 20_memory.md R71; 60_exceptions.md R194, R195, R210; 70_reset_and_hazards.md R230). -/

namespace Sys2Proof.Machine

/-- One engine tick, after the line is sampled: the command in flight performs one tick of its rule, an illegal word
commits (60_exceptions.md R198), and IDLE counts (10_state.md R61, log 12). -/
def engineTick (s : State) : Host.Outcome State Fault Refusal :=
  if s.status.busy then
    match decode s.eng.cmd with
    | .ok i => exec i s
    | .error _ => .next (illegalTick s)
  else .next (count s)

/-- One cycle of `clk` (60_exceptions.md R210): the last of P_CLK_PER_TICK cycles is a tick. With `rst_n` low every
state, the divider included, stays at its reset value. -/
def clkCycle (s : State) : Host.Outcome State Fault Refusal :=
  if s.rstN then
    if s.div + 1 = paramClkPerTick s.par then engineTick (sampleLine { s with div := 0 })
    else .next { s with div := s.div + 1 }
  else .next s

/-- A host write of `w` to CMD: dropped while BUSY (60_exceptions.md R195), else accepted (R194); a legal word is the
start of its command, an illegal one is accepted too. -/
def writeCmd (w : Word) (s : State) : Host.Outcome State Fault Refusal :=
  if s.status.busy then .next (dropCommand s)
  else
    match decode w with
    | .ok i => exec i s
    | .error _ => .next (accept w s)

/-- Is the offset in the window (20_memory.md R70)? -/
def inWindow (off : Nat) : Bool := off < 4096

/-- 20_memory.md R71: a 32-bit access at an offset that is a multiple of 4. -/
def accessLegal (off width : Nat) : Bool := width == 4 && off % 4 == 0

/-- A host write access. -/
def hostWrite (off width : Nat) (v : Word) (s : State) : Host.Outcome State Fault Refusal :=
  if inWindow off then
    if s.rstN then
      if accessLegal off width then
        match regAt off with
        | some .cmd => writeCmd v { s with resp := .ack }
        | some r => .next (writeReg r v { s with resp := .ack })
        | none => .next { s with resp := .ack }
      else .next { s with resp := .writeError }
    else .next { s with resp := .ack }
  else .fault (.outsideWindow off)

/-- A host read access. "A read returns 0 with the error" (20_memory.md R71); while `rst_n` = 0 it is ignored and
returns 0 (70_reset_and_hazards.md R230). -/
def hostRead (off width : Nat) (s : State) : Host.Outcome State Fault Refusal :=
  if inWindow off then
    if s.rstN then
      if accessLegal off width then .next { s with resp := .data (readOffset off s) }
      else .next { s with resp := .readError 0 }
    else .next { s with resp := .data 0 }
  else .fault (.outsideWindow off)

/-- One turn of the host's loop `L: RD STATUS -> s ; if s[0] = 1 goto L` (30_encoding.md R96): a STATUS read, then, while
BUSY, a clock cycle before the next turn (log 14). -/
def hostWait (s : State) : Host.Outcome State Fault Refusal :=
  let v := if s.rstN then readReg .status s else 0
  if v.getLsbD 0 then .next { s with resp := .data v, inputs := .clk :: .wait :: s.inputs }
  else .next { s with resp := .data v }

/-- One event of the outside world. -/
def handleEvent (e : Event) (s : State) : Host.Outcome State Fault Refusal :=
  match e with
  | .hostWrite off width v => hostWrite off width v s
  | .hostRead off width => hostRead off width s
  | .clk => clkCycle s
  | .wait => hostWait s
  | .rst l => .next (driveRst l s)
  | .powerCycle => .next (holdReset s)
  | .absent c => .refused (.absentClass c)

/-- The next event: the first one lined up, else time passes, a cycle of `clk` (00_scope.md R16, "time never stops"). -/
def nextEvent (s : State) : Host.Outcome State Fault Refusal :=
  match s.inputs with
  | [] => clkCycle s
  | e :: rest => handleEvent e { s with inputs := rest }

/-- `s` with the host's write of the command word `w` to CMD as the very next event, and able to accept it: out of
reset and with no command in flight. -/
def withCommand (w : Word) (s : State) : State :=
  { s with
    rstN := true
    status := { s.status with busy := false }
    eng := { s.eng with seq := .idle }
    inputs := .hostWrite 0x010 4 w :: s.inputs }

/-- Engine ticks with the given line samples, one after another, and nothing else between them. -/
def runTicks : List Level → State → Host.Outcome State Fault Refusal
  | [], s => .next s
  | l :: ls, s =>
    match engineTick { s with eng := { s.eng with swI := l } } with
    | .next t => runTicks ls t
    | .fault r => .fault r
    | .refused r => .refused r

end Sys2Proof.Machine
end

