-- ==== Sys2Proof/Machine/Step.lean ====
section
/-! DEFINITION. One step of SWCP: one atomic event (00_scope.md rule R16). -/

namespace Sys2Proof.Machine

/-- One step. -/
def step (s : State) : Host.Outcome State Fault Refusal := nextEvent s

/-- SWCP fetches nothing (20_memory.md R81): its next instruction is the word the host writes to CMD. The command word of
`nbits` bits (zero above them) becomes the very next event. -/
def State.withFetchWord (s : State) (nbits w : Nat) : State := withCommand (BitVec.ofNat 32 (w % 2 ^ nbits)) s

end Sys2Proof.Machine
end

