-- ==== Sys2Proof/Machine/HostScript.lean ====
section
/-! DEFINITION. The host-script notation (30_encoding.md rules R96, R97): statements, the expansion of the
pseudo-instructions to bus transactions, and their listing. A program is the host's; SWCP sees its transactions only. -/

namespace Sys2Proof.Machine

/-- The registers that hold a binary64 value in two words, LO at the lower offset (20_memory.md R74). -/
inductive Reg64 where
  | sealevel | temp | press | alt | hum | swtemp
  deriving DecidableEq, Repr

/-- The `*_LO` register. -/
def reg64Lo : Reg64 → Reg
  | .sealevel => .sealevelLo
  | .temp => .tempLo
  | .press => .pressLo
  | .alt => .altLo
  | .hum => .humLo
  | .swtemp => .swtempLo

/-- The `*_HI` register. -/
def reg64Hi : Reg64 → Reg
  | .sealevel => .sealevelHi
  | .temp => .tempHi
  | .press => .pressHi
  | .alt => .altHi
  | .hum => .humHi
  | .swtemp => .swtempHi

/-- R96: one statement. `EXPECT` is no access and has no statement here. -/
inductive HostStmt where
  /-- `WR <REG>, <value>`. -/
  | wr (r : Reg) (v : Word)
  /-- `RD <REG>`. -/
  | rd (r : Reg)
  /-- `CMD <MNEMONIC>`. -/
  | cmd (i : Instr)
  /-- `WAIT`. -/
  | wait
  /-- `CLRDONE`. -/
  | clrDone
  /-- `CLROVR`. -/
  | clrOvr
  /-- `WR64 <R>, <binary64>`. -/
  | wr64 (r : Reg64) (v : F64)
  /-- `RD64 <R>`. -/
  | rd64 (r : Reg64)
  /-- `CALBYTES b0 .. b21`. -/
  | calbytes (b : Vector Byte 22)
  deriving DecidableEq, Repr

/-- The host's address of an offset of the window (00_scope.md R5, 43_control.md R181: "the only addressing mode being
`P_BASE + off`"). -/
def hostAddress (p : Params) (off : Nat) : Nat := paramBase p + off

/-- The offset at which an address of the host reaches the window; none for an address that does not reach it. -/
def windowOffset (p : Params) (addr : Nat) : Option Nat :=
  if paramBase p ≤ addr ∧ addr < paramBase p + 4096 then some (addr - paramBase p) else none

/-- R96: `MemWrite(off(REG), 4, value)`. -/
def wrEvent (r : Reg) (v : Word) : Event := .hostWrite (regOffset r) 4 v

/-- R96: `MemRead(off(REG), 4)`. -/
def rdEvent (r : Reg) : Event := .hostRead (regOffset r) 4

/-- R96: the expansion of a statement to events. -/
def expandStmt : HostStmt → List Event
  | .wr r v => [wrEvent r v]
  | .rd r => [rdEvent r]
  | .cmd i => [wrEvent .cmd (encode i)]
  | .wait => [.wait]
  | .clrDone => [wrEvent .status 0x00000002]
  | .clrOvr => [wrEvent .status 0x00000004]
  | .wr64 r v => [wrEvent (reg64Lo r) (loWord v), wrEvent (reg64Hi r) (hiWord v)]
  | .rd64 r => [rdEvent (reg64Lo r), rdEvent (reg64Hi r)]
  | .calbytes b => (List.finRange 22).map (fun i => wrEvent (.calbyte i) ((b[i.val]'i.isLt).setWidth 32))

/-- A program's events, one after another. DESIGN CHOICE (log 23): no clock cycle stands between two statements, or between
the accesses of one, where 00_scope.md R16 lets any number of ticks pass. -/
def expandProgram (prog : List HostStmt) : List Event := prog.flatMap expandStmt

/-- The host is about to perform a program, after the events already lined up, with the spacing of log 23. -/
def loadProgram (prog : List HostStmt) (s : State) : State :=
  { s with inputs := s.inputs ++ expandProgram prog }

/-- 70_reset_and_hazards.md R243: the run of a host program has ended. -/
def runEnded (s : State) : Bool := s.inputs.isEmpty && !s.status.busy

/-- One upper-case hexadecimal digit. -/
def hexDigit (n : Nat) : Char := if n < 10 then Char.ofNat (48 + n) else Char.ofNat (55 + n)

/-- The lowest `k` hexadecimal digits of `n`, the most significant first. -/
def hexDigits : Nat → Nat → List Char
  | 0, _ => []
  | k + 1, n => hexDigits k (n / 16) ++ [hexDigit (n % 16)]

/-- R97: `W <offset>: <value>` or `R <offset>`, both hex; the polling loop is listed once. Other events are no bus
transaction and have no listing. -/
def listing : Event → String
  | .hostWrite off _ v =>
    "W " ++ String.ofList (hexDigits 3 off) ++ ": " ++ String.ofList (hexDigits 8 v.toNat)
  | .hostRead off _ => "R " ++ String.ofList (hexDigits 3 off)
  | .wait => "R 014 (loop)"
  | .clk => ""
  | .rst _ => ""
  | .powerCycle => ""
  | .absent _ => ""

end Sys2Proof.Machine
end

