-- ==== Sys2Proof/Safety.lean ====
section
/-! DEFINITION. What counts as a safe state and a safe run, in the terms claims use: the invariant every step keeps,
the host's contract (70_reset_and_hazards.md rules R234 to R242), the hang (60_exceptions.md rule R207), and the
bounds of a single-wire cycle (42_singlewire.md rule R157). -/

namespace Sys2Proof.Machine

/-- The level a waiting state waits for (42_singlewire.md R152 to R154); none for a state that does not wait. -/
def awaited : Seq → Option Level
  | .ackLow => some .low
  | .ackHigh => some .high
  | .bitEdge => some .low
  | .bitRestore => some .high
  | .idle | .prep | .startLow | .release | .bitDelay | .swFinish | .compute => none

/-- Is the state a phase of SW_READ (10_state.md R60)? -/
def wirePhase : Seq → Bool
  | .prep | .startLow | .release | .ackLow | .ackHigh | .bitEdge | .bitDelay | .bitRestore | .swFinish => true
  | .idle | .compute => false

/-- 10_state.md R61: how many ticks the current phase can still take in the same state, where a limit exists: `cnt` stays
below it. A wait with WAIT_LIMIT_US = 0 and IDLE have none. -/
def phaseLimit (p : Params) (sn : Snap) : Seq → Option Nat
  | .prep => some 1
  | .startLow => some (startTicks sn)
  | .release => some sn.releaseUs.toNat
  | .ackLow | .ackHigh | .bitEdge | .bitRestore => if sn.waitLimit = 0 then none else some sn.waitLimit.toNat
  | .bitDelay => some 40
  | .swFinish => some 1
  | .compute => some (paramCompLatency p)
  | .idle => none

/-- 10_state.md R62: which bit counts a phase can be in. -/
def bitidxLegal (q : Seq) (k : Nat) : Prop :=
  match q with
  | .prep | .startLow | .release | .ackLow | .ackHigh => k = 0
  | .bitEdge | .bitDelay | .bitRestore => k < 40
  | .swFinish => k = 40
  | .idle | .compute => k ≤ 40

/-- 10_state.md R36: what SEQ.ENDSTATE can hold: its reset value, SW_FINISH, or a waiting state. -/
def endstateLegal (q : Seq) : Prop := q = .idle ∨ q = .swFinish ∨ awaited q ≠ none

/-- The invariant: what holds of every state a run can reach. -/
structure StateInv (s : State) : Prop where
  /-- R30, R60: a command is in flight exactly when the sequencer is not IDLE. -/
  busy_iff : s.status.busy = true ↔ s.eng.seq ≠ .idle
  /-- R31: DONE is 0 while a command is in flight. -/
  done_idle : s.status.done = true → s.status.busy = false
  /-- R60: only SW_READ leaves IDLE by PREP, and its phases belong to it. -/
  wire_cmd : wirePhase s.eng.seq = true → s.eng.cmd = encode .swRead
  /-- R60: every other accepted word is in COMPUTE. -/
  compute_cmd : s.eng.seq = .compute → s.eng.cmd ≠ encode .swRead
  /-- R35: LASTOP is the OPC of the word in flight. -/
  lastop_cmd : s.status.busy = true → s.status.lastop = opcField s.eng.cmd
  /-- R26. -/
  start_range : 18 ≤ s.host.startMs.toNat
  /-- R27. -/
  release_range : 20 ≤ s.host.releaseUs.toNat ∧ s.host.releaseUs.toNat ≤ 40
  /-- R26, R27, R63: the snapshot of a command in flight holds legal timings. -/
  snap_range : s.status.busy = true →
    18 ≤ s.eng.snap.startMs.toNat ∧ 20 ≤ s.eng.snap.releaseUs.toNat ∧ s.eng.snap.releaseUs.toNat ≤ 40
  /-- R62. -/
  bitidx_legal : bitidxLegal s.eng.seq s.eng.bitidx
  /-- R61: `cnt` stays below the limit of its phase. -/
  cnt_legal : ∀ n, phaseLimit s.par s.eng.snap s.eng.seq = some n → s.eng.cnt.toNat < n
  /-- R36. -/
  endstate_legal : endstateLegal s.eng.endstate
  /-- R191: "A model must treat ERRCODE = 1 as unreachable." -/
  errcode_legal : s.status.errcode ≠ .communication
  /-- R33, R43: the coefficients are 0 until a CAL_LOAD has succeeded. -/
  coef_valid : s.status.calValid = false → s.coef = Coefs.zero
  /-- R210. -/
  div_lt : s.div < paramClkPerTick s.par
  /-- R230: while `rst_n` = 0 every piece of state holds its reset value. -/
  held : s.rstN = false → s = holdReset s

/-- 60_exceptions.md R207: a SW_READ in a wait without a bound. -/
def unboundedWait (s : State) : Prop :=
  s.status.busy = true ∧ s.eng.cmd = encode .swRead ∧ awaited s.eng.seq ≠ none ∧ s.eng.snap.waitLimit = 0

/-- 70_reset_and_hazards.md R242: the host's accesses are 32 bits wide, aligned and in the window. -/
def accessConforms : Event → Bool
  | .hostWrite off width _ => inWindow off && accessLegal off width
  | .hostRead off width => inWindow off && accessLegal off width
  | .absent _ => false
  | .clk | .wait | .rst _ | .powerCycle => true

/-- 70_reset_and_hazards.md R234: CMD is written only while BUSY = 0. -/
def cmdWhenIdle (s : State) : Event → Bool
  | .hostWrite off _ _ => off != 0x010 || !s.status.busy
  | .hostRead _ _ | .clk | .wait | .rst _ | .powerCycle | .absent _ => true

/-- 70_reset_and_hazards.md R239: two SW_READs are `gap` apart, the sensor's minimum interval or more. SWCP does not
enforce it. -/
def spacingConforms (p : Params) (gap : Nat) : Bool := p.swMinInterval ≤ gap

/-- A run of `k` steps that meets no fault and no refusal. -/
def SafeRun (k : Nat) (s : State) : Prop := ∃ t : State, Host.Core.run Sys2Proof.core k s = .next t

end Sys2Proof.Machine
end

