-- ==== Sys2Proof/Certificates/Slice0/Obligations.lean ====
section
/-! DEFINITION. The statements for the provers. Each docstring names the rule of spec/ it rests on. -/

namespace Sys2Proof.Machine

/-- The state after a commit with a code (60_exceptions.md R196), written out field by field: the result registers are
those of `s`, DONE is 1, BUSY is 0, and the engine is in IDLE with `cnt` 0. -/
def ended (code : ErrCode) (s : State) : State :=
  { s with
    status := { s.status with errcode := code, done := true, busy := false }
    eng := { s.eng with seq := .idle, cnt := 0 } }

/-- A COMPUTE command is in flight and this tick is tick `P_COMP_LATENCY - 1` (60_exceptions.md R197). -/
def commitTick (s : State) : Prop :=
  s.status.busy = true ∧ s.eng.cnt.toNat + 1 = s.par.lastCompTick.toNat + 1

/-- A SW_READ is in flight in the phase `q` (10_state.md R60). -/
def readingIn (q : Seq) (s : State) : Prop :=
  s.status.busy = true ∧ s.eng.cmd = 0x00000010 ∧ s.eng.seq = q

/-- The state one phase later: a state change sets `cnt` to 0 (10_state.md R61). -/
def moved (q : Seq) (s : State) : State := { s with eng := { s.eng with seq := q, cnt := 0 } }

/-- One more tick in the same state (10_state.md R61). -/
def counted (s : State) : State := { s with eng := { s.eng with cnt := s.eng.cnt + 1 } }

/-- The state with a new sample of the line. -/
def sampled (l : Level) (s : State) : State := { s with eng := { s.eng with swI := l } }

/-- The event is one that puts SWCP in reset (70_reset_and_hazards.md R230, 60_exceptions.md R214). -/
def resets (s : State) : Prop := s.inputs.head? = some (.rst .low) ∨ s.inputs.head? = some .powerCycle

/-- The next event is a 32-bit host write of `w` at the offset `off`. -/
def writesNext (off : Nat) (w : Word) (s : State) : Prop := s.inputs.head? = some (.hostWrite off 4 w)

/-- The next event is a clock cycle: one that is lined up, or time passing with nothing lined up (00_scope.md R16).
`rest` is what stays lined up. -/
def clockCycleNext (rest : List Event) (s : State) : Prop :=
  s.inputs = .clk :: rest ∨ (s.inputs = [] ∧ rest = [])

/-- `a` is `s` with the line sampled for the tick that a clock cycle ends (00_scope.md R8, 60_exceptions.md R210): the
listed sample where one is listed, a free draw where none is. `rest` is what stays lined up. -/
def sampledForTick (rest : List Event) (s a : State) : Prop :=
  (∃ l ls, s.lineIn = l :: ls ∧ a = { sampled l s with inputs := rest, lineIn := ls, div := 0 }) ∨
  (s.lineIn = [] ∧ a = { sampled (Config.line s.draws) s with inputs := rest, draws := s.draws + 1, div := 0 })

/-- 60_exceptions.md R190: the numbers of the error codes. -/
def errorNumber : ErrCode → Nat
  | .ok => 0
  | .communication => 1
  | .identityMismatch => 2
  | .invalidMode => 3
  | .checksum => 4
  | .notCalibrated => 5
  | .timeout => 6
  | .arithmetic => 7
  | .illegalCommand => 8

/-- 10_state.md R60: the numbers of the sequencer states. -/
def seqNumber : Seq → Nat
  | .idle => 0
  | .prep => 1
  | .startLow => 2
  | .release => 3
  | .ackLow => 4
  | .ackHigh => 5
  | .bitEdge => 6
  | .bitDelay => 7
  | .bitRestore => 8
  | .swFinish => 9
  | .compute => 10

/-- 10_state.md R23: the numbers of the units. -/
def unitNumber : TempUnit → Nat
  | .celsius => 0
  | .fahrenheit => 1
  | .kelvin => 2

/-! IEEE 754's reading of a binary64 pattern: sign in bit 63, exponent field in bits 62..52, fraction in bits 51..0. -/

/-- The sign bit is 1. -/
def negPattern (x : F64) : Prop := x.toNat / 2 ^ 63 = 1

/-- A zero of either sign. -/
def zeroPattern (x : F64) : Prop := x.toNat % 2 ^ 63 = 0

/-- An infinity of either sign. -/
def infPattern (x : F64) : Prop := x.toNat % 2 ^ 63 = 2047 * 2 ^ 52

/-- A NaN. -/
def nanPattern (x : F64) : Prop := 2047 * 2 ^ 52 < x.toNat % 2 ^ 63

/-- Neither an infinity nor a NaN. -/
def finitePattern (x : F64) : Prop := x.toNat / 2 ^ 52 % 2048 ≠ 2047

/-- The number a finite pattern stands for. -/
def f64Rat (x : F64) : ℚ :=
  (if x.toNat / 2 ^ 63 = 1 then -1 else 1) *
    (if x.toNat / 2 ^ 52 % 2048 = 0 then ((x.toNat % 2 ^ 52 : Nat) : ℚ) * (2 : ℚ) ^ (-1074 : Int)
      else ((2 ^ 52 + x.toNat % 2 ^ 52 : Nat) : ℚ) * (2 : ℚ) ^ (((x.toNat / 2 ^ 52 % 2048 : Nat) : Int) - 1075))

/-- 00_scope.md R12: `y` is the binary64 value nearest the number `q`, the one with the even pattern of two that are
equally near; from halfway between the greatest finite number and 2^1024 on it is the infinity. A `y` for a nonzero
`q` has its sign. -/
def roundsTo (q : ℚ) (y : F64) : Prop :=
  (q ≠ 0 → (negPattern y ↔ q < 0)) ∧
  (|q| < (2 : ℚ) ^ 1024 - (2 : ℚ) ^ 970 →
    finitePattern y ∧ ∀ z : F64, finitePattern z →
      |q - f64Rat y| ≤ |q - f64Rat z| ∧
      (|q - f64Rat y| = |q - f64Rat z| → f64Rat z = f64Rat y ∨ y.toNat % 2 = 0)) ∧
  ((2 : ℚ) ^ 1024 - (2 : ℚ) ^ 970 ≤ |q| → infPattern y)

/-- 41_compensation.md R125, R126, written step by step: x1, the divisor d, b5 and TEMP_DC of a snapshot. -/
def temperatureChain (sn : Snap) (x1 d b5 dc : Int) : Prop :=
  x1 = Int.tdiv (s32 (((sn.rawt.toNat : Int) - sn.coef.ac6.toNat) * sn.coef.ac5.toNat)) 32768 ∧
  d = s32 (x1 + sn.coef.md.toInt) ∧
  b5 = s32 (x1 + Int.tdiv (s32 (sn.coef.mc.toInt * 2048)) d) ∧
  dc = Int.fdiv (s32 (b5 + 8)) 16

/-- 41_compensation.md R131, written step by step: b4 from b5. -/
def b4Chain (sn : Snap) (b5 b4 : Int) : Prop :=
  ∃ b6 sq x3 : Int,
    b6 = s32 (b5 - 4000) ∧
    sq = Int.tdiv (s32 (b6 * b6)) 4096 ∧
    x3 = Int.tdiv (s32 (s32 (Int.tdiv (s32 (sn.coef.ac3.toInt * b6)) 8192 +
      Int.tdiv (s32 (sn.coef.b1.toInt * sq)) 65536) + 2)) 4 ∧
    b4 = u32 (sn.coef.ac4.toNat * u32 (x3 + 32768)) / 32768

/-- 41_compensation.md R130, R131, R132, written step by step: UP and the pressure p from b5 and b4, for the mode oss.
-/
def pressureChain (sn : Snap) (oss : Nat) (b5 b4 up p : Int) : Prop :=
  ∃ b6 sq x3 b3 b7 q p0 z : Int,
    up = ((sn.rawp.toNat / 2 ^ (8 - oss) : Nat) : Int) ∧
    b6 = s32 (b5 - 4000) ∧
    sq = Int.tdiv (s32 (b6 * b6)) 4096 ∧
    x3 = s32 (Int.tdiv (s32 (sn.coef.b2.toInt * sq)) 2048 + Int.tdiv (s32 (sn.coef.ac2.toInt * b6)) 2048) ∧
    b3 = Int.tdiv (s32 (s32 (s32 (sn.coef.ac1.toInt * 4 + x3) * 2 ^ oss) + 2)) 4 ∧
    b7 = u32 (u32 (up - b3) *
      (if oss = 0 then 50000 else if oss = 1 then 25000 else if oss = 2 then 12500 else 6250)) ∧
    q = (if b7 < 2147483648 then u32 (b7 * 2) / b4 else u32 (b7 / b4 * 2)) ∧
    p0 = s32 q ∧
    z = s32 (Int.tdiv p0 256 * Int.tdiv p0 256) ∧
    p = s32 (p0 + Int.tdiv (s32 (s32 (Int.tdiv (s32 (z * 3038)) 65536 +
      Int.tdiv (s32 (-7357 * p0)) 65536) + 3791)) 16)

/-- 10_state.md R44 to R46: the temperature registers for b5 and TEMP_DC. -/
def temperatureRegs (b5 dc : Int) : TempResult :=
  { b5 := BitVec.ofInt 32 b5, tempDc := BitVec.ofInt 32 dc, temp := f64Div (f64OfInt dc) 0x4024000000000000 }

/-- 10_state.md R47 to R49: the pressure registers for UP and p. -/
def pressureRegs (up p : Int) : PresResult :=
  { up := BitVec.ofInt 32 up, pressPa := BitVec.ofInt 32 p, press := f64OfInt p }

/-- The offsets of the window whose reads a tick of the command in flight, or its acceptance, may change. -/
def writtenOffsets : Instr → List Nat
  | .nop => [0x014, 0x018]
  | .calLoad => [0x014, 0x018, 0x040, 0x044, 0x048, 0x04C, 0x050, 0x054, 0x058, 0x05C, 0x060, 0x064, 0x068]
  | .tempComp => [0x014, 0x018, 0x080, 0x084, 0x088, 0x08C]
  | .presComp => [0x014, 0x018, 0x080, 0x084, 0x088, 0x08C, 0x090, 0x094, 0x098, 0x09C]
  | .altComp => [0x014, 0x018, 0x080, 0x084, 0x088, 0x08C, 0x090, 0x094, 0x098, 0x09C, 0x0A0, 0x0A4]
  | .swRead => [0x014, 0x018, 0x0C0, 0x0C4, 0x0C8, 0x0CC, 0x0D0, 0x0D4, 0x0D8, 0x0DC, 0x0E0]
  | .swCheck => [0x014, 0x018, 0x0C8, 0x0CC, 0x0D0, 0x0D4, 0x0D8, 0x0DC, 0x0E0]

end Sys2Proof.Machine

open Sys2Proof Sys2Proof.Machine

/-! ## Encoding -/

/-- 30_encoding.md R91: the seven words, written out. -/
def Obligations.DecodesTheSevenWords : Prop :=
  decode 0x00000000 = .ok .nop ∧ decode 0x00000001 = .ok .calLoad ∧ decode 0x00000002 = .ok .tempComp ∧
  decode 0x00000003 = .ok .presComp ∧ decode 0x00000004 = .ok .altComp ∧ decode 0x00000010 = .ok .swRead ∧
  decode 0x00000011 = .ok .swCheck

/-- 30_encoding.md R91, R92: a word decodes to a command exactly when it is that command's word, and exactly the legal
words decode. -/
def Obligations.DecodeInvertsEncode : Prop :=
  (∀ (w : Word) (i : Instr), decode w = .ok i ↔ w = encode i) ∧
  (∀ w : Word, (∃ i, decode w = .ok i) ↔
    (w.toNat / 256 = 0 ∧ (w.toNat % 256 ≤ 4 ∨ w.toNat % 256 = 16 ∨ w.toNat % 256 = 17))) ∧
  (∀ w : Word, legalWord w = true ↔ ∃ i, decode w = .ok i)

/-! ## Reset -/

/-- 10_state.md R67: every piece of state takes the reset value of the table. The fields `cmd`, `swI` and `resp` and the
lists of events and samples are the model's own and are not stated. -/
def Obligations.ResetValues : Prop :=
  ∀ p : Params,
    let s := State.resetOf p
    s.host.ie = false ∧ s.host.unit = .celsius ∧ s.host.mode = 1 ∧ s.host.startMs = 18 ∧ s.host.releaseUs = 20 ∧
    s.host.waitLimit = 1000 ∧ s.status.busy = false ∧ s.status.done = false ∧ s.status.ovr = false ∧
    s.status.calValid = false ∧ s.status.errcode = .ok ∧ s.status.lastop = 0 ∧ s.eng.seq = .idle ∧
    s.eng.endstate = .idle ∧ s.eng.bitidx = 0 ∧ s.eng.cnt = 0 ∧ s.eng.shreg = 0 ∧ s.eng.snap = Snap.reset ∧
    s.host.calid = 0 ∧ s.host.rawt = 0 ∧ s.host.rawp = 0 ∧ s.host.sealevel = 0x40F8BCD000000000 ∧
    (∀ i : Fin 22, s.host.calbyte[i.val] = 0) ∧ s.coef = Coefs.zero ∧ s.temp.b5 = 0 ∧ s.temp.tempDc = 0 ∧
    s.pres.up = 0 ∧ s.pres.pressPa = 0 ∧ s.temp.temp = 0 ∧ s.pres.press = 0 ∧ s.alt = 0 ∧ s.sw.hum = 0 ∧
    s.sw.swtemp = 0 ∧ s.frame.frame0 = 0 ∧ s.frame.frame1 = 0 ∧ s.swsum = 0 ∧ s.sw.swraw = 0 ∧
    s.sw.swunit = .celsius ∧ swOe s = false ∧ swO s = .high ∧ irq s = false ∧
    readOffset 0x000 s = 0x53574350 ∧ readOffset 0x00C s = 0x03E81412 ∧ readOffset 0x018 s = 0 ∧
    readOffset 0x01C s = 5#8 ++ (p.pressCmdBase + 0x40#8) ++ 8#8 ++ 0#7 ++ 1#1 ∧
    readOffset 0x020 s = 0#8 ++ p.pressCmdBase ++ p.tempCmd ++ p.expectedId

/-- 70_reset_and_hazards.md R230: while `rst_n` is low the state is the reset state (but for the pin, the bus's last
answer and what the outside world has lined up), a command in flight is abandoned, and host accesses are ignored.
When `rst_n` rises nothing else changes, so SWCP is IDLE and accepts the next CMD write. A power cycle is the same as
`rst_n` driven low (60_exceptions.md R214, log 10). That an ignored write is answered by `ack`, and that a turn of WAIT
reads 0 there, are the model's choices (logs 10, 11 and 14). -/
def Obligations.ResetPinAbandonsTheCommand : Prop :=
  (∀ (s : State) (rest : List Event), s.inputs = .rst .low :: rest ∨ s.inputs = .powerCycle :: rest →
    step s = .next { State.resetOf s.par with
      rstN := false, resp := s.resp, inputs := rest, lineIn := s.lineIn, draws := s.draws }) ∧
  (∀ (s : State) (rest : List Event), s.inputs = .rst .high :: rest →
    step s = .next { s with rstN := true, inputs := rest }) ∧
  (∀ (s : State) (rest : List Event) (off width : Nat) (v : Word), s.rstN = false → off < 4096 →
    s.inputs = .hostWrite off width v :: rest → step s = .next { s with inputs := rest, resp := .ack }) ∧
  (∀ (s : State) (rest : List Event) (off width : Nat), s.rstN = false → off < 4096 →
    s.inputs = .hostRead off width :: rest → step s = .next { s with inputs := rest, resp := .data 0 }) ∧
  (∀ (s : State) (rest : List Event), s.rstN = false → s.inputs = .wait :: rest →
    step s = .next { s with inputs := rest, resp := .data 0 }) ∧
  (∀ (s : State) (rest : List Event), s.rstN = false → clockCycleNext rest s → step s = .next { s with inputs := rest })

/-! ## The step -/

/-- A step runs the decoded command: the host's write of its word to CMD while BUSY = 0 (00_scope.md R16,
60_exceptions.md R194), or an engine tick while its word is in flight (60_exceptions.md R197, 42_singlewire.md R166;
60_exceptions.md R210 says which clock cycle is a tick). A tick with an illegal word in flight commits ERRCODE 8 (R197,
R198), and a tick in IDLE counts and does nothing else (60_exceptions.md R214; that `cnt` counts there is log 12). The
lists of events and samples and the accepted word's register are the model's (logs 1, 3 and 5). -/
def Obligations.StepRunsTheDecodedCommand : Prop :=
  (∀ (s : State) (rest : List Event) (w : Word) (i : Instr), s.rstN = true → s.status.busy = false → decode w = .ok i →
    s.inputs = .hostWrite 0x010 4 w :: rest → step s = exec i { s with inputs := rest, resp := .ack }) ∧
  (∀ (s a : State) (rest : List Event), s.rstN = true → s.div = s.par.clkPerTickPred → clockCycleNext rest s →
    sampledForTick rest s a →
    (∀ i, s.status.busy = true → decode s.eng.cmd = .ok i → step s = exec i a) ∧
    (s.status.busy = true → legalWord s.eng.cmd = false → step s = .next (ended .illegalCommand a)) ∧
    (s.status.busy = false → step s = .next (counted a))) ∧
  (∀ (s : State) (rest : List Event), s.rstN = true → s.div ≠ s.par.clkPerTickPred → clockCycleNext rest s →
    step s = .next { s with inputs := rest, div := s.div + 1 })

/-- 60_exceptions.md R194: what acceptance writes, for every command, and that a CMD write is the only event that
starts a command. -/
def Obligations.AcceptanceStartsTheCommand : Prop :=
  (∀ (s : State) (w : Word) (rest : List Event), s.rstN = true → s.status.busy = false →
    s.inputs = .hostWrite 0x010 4 w :: rest →
    ∃ t, step s = .next t ∧
      t.status = { s.status with busy := true, done := false, lastop := w.extractLsb' 0 8 } ∧
      t.eng.snap = { unit := s.host.unit, mode := s.host.mode, startMs := s.host.startMs, releaseUs := s.host.releaseUs
                     waitLimit := s.host.waitLimit, calid := s.host.calid, calbyte := s.host.calbyte
                     rawt := s.host.rawt, rawp := s.host.rawp, sealevel := s.host.sealevel
                     frame0 := s.frame.frame0, frame1 := s.frame.frame1, coef := s.coef
                     calValid := s.status.calValid } ∧
      t.eng.cnt = 0 ∧
      (w = 0x00000010 → t.eng.seq = .prep ∧ t.eng.bitidx = 0 ∧ t.eng.shreg = 0) ∧
      (w ≠ 0x00000010 → t.eng.seq = .compute ∧ t.eng.bitidx = s.eng.bitidx ∧ t.eng.shreg = s.eng.shreg) ∧
      t.eng.endstate = s.eng.endstate ∧
      t = { s with status := t.status, eng := t.eng, inputs := rest, resp := t.resp }) ∧
  (∀ s t : State, s.status.busy = false → step s = .next t → t.status.busy = true →
    ∃ w, writesNext 0x010 w s)

/-- 60_exceptions.md R194: at IDLE `exec` of each command is its acceptance, which leaves every register but STATUS and
the SEQ view as it was. -/
def Obligations.ExecAcceptsWhenIdle : Prop :=
  ∀ (i : Instr) (s : State), s.status.busy = false →
    ∃ t, exec i s = .next t ∧ t.status.busy = true ∧ t.status.lastop = opcode i ∧ t.eng.cmd = encode i ∧
      t.eng.seq = (if i = .swRead then .prep else .compute) ∧
      t = { s with status := t.status, eng := t.eng } ∧
      (∀ off, off ≠ 0x014 → off ≠ 0x018 → readOffset off t = readOffset off s)

/-- 60_exceptions.md R195. -/
def Obligations.BusyDropsTheWord : Prop :=
  ∀ (s : State) (w : Word) (rest : List Event), s.rstN = true → s.status.busy = true →
    s.inputs = .hostWrite 0x010 4 w :: rest →
    ∃ t, step s = .next t ∧ t = { s with status := { s.status with ovr := true }, inputs := rest, resp := t.resp }

/-- 60_exceptions.md R198: an accepted illegal word commits at tick 0 with ERRCODE 8 and writes nothing else; LASTOP
holds its OPC. -/
def Obligations.IllegalWordCommitsAtTickZero : Prop :=
  ∀ (s : State) (w : Word) (rest : List Event), s.rstN = true → s.status.busy = false → legalWord w = false →
    s.inputs = .hostWrite 0x010 4 w :: rest →
    ∃ a, step s = .next a ∧ a.status.busy = true ∧ a.status.lastop = w.extractLsb' 0 8 ∧
      ∀ l, engineTick (sampled l a) = .next (ended .illegalCommand (sampled l a))

/-! ## The commands: results -/

/-- 43_control.md R180: NOP's tick, whatever P_COMP_LATENCY and `cnt` are. -/
def Obligations.NopCommitsWithSuccess : Prop :=
  ∀ s : State, s.status.busy = true → exec .nop s = .next (ended .ok s)

/-- 40_calibration.md R110, R111: CAL_LOAD's commit on a matching identity byte: each coefficient register reads the
big-endian pair of its two bytes, extended as 10_state.md R43 says, and nothing else but CAL_VALID is written. -/
def Obligations.CalLoadDecodesTheBlock : Prop :=
  ∀ s : State, commitTick s → s.eng.snap.calid = s.par.expectedId →
    let b := s.eng.snap.calbyte
    let pair := fun (k : Fin 11) => 256 * (b[2 * k.val].toNat : Int) + (b[2 * k.val + 1].toNat : Int)
    let signed := fun (k : Fin 11) => if pair k < 32768 then pair k else pair k - 65536
    ∃ c : Coefs, exec .calLoad s =
        .next (ended .ok { s with coef := c, status := { s.status with calValid := true } }) ∧
      (∀ t : State, t.coef = c →
        (readReg .coefAc1 t).toInt = signed 0 ∧ (readReg .coefAc2 t).toInt = signed 1 ∧
        (readReg .coefAc3 t).toInt = signed 2 ∧ (readReg .coefAc4 t).toInt = pair 3 ∧
        (readReg .coefAc5 t).toInt = pair 4 ∧ (readReg .coefAc6 t).toInt = pair 5 ∧
        (readReg .coefB1 t).toInt = signed 6 ∧ (readReg .coefB2 t).toInt = signed 7 ∧
        (readReg .coefMb t).toInt = signed 8 ∧ (readReg .coefMc t).toInt = signed 9 ∧
        (readReg .coefMd t).toInt = signed 10)

/-- 40_calibration.md R110: on a mismatch no coefficient and no CAL_VALID is written. -/
def Obligations.CalLoadMismatchWritesNothing : Prop :=
  ∀ s : State, commitTick s → s.eng.snap.calid ≠ s.par.expectedId →
    exec .calLoad s = .next (ended .identityMismatch s)

/-- 41_compensation.md R125, R126, R135: TEMP_COMP's result, with the operation order and truncation of the rules. -/
def Obligations.TempCompComputesTheTemperature : Prop :=
  ∀ (s : State) (x1 d b5 dc : Int), commitTick s → s.eng.snap.calValid = true →
    temperatureChain s.eng.snap x1 d b5 dc → d ≠ 0 →
    exec .tempComp s = .next (ended .ok { s with temp := temperatureRegs b5 dc })

/-- 41_compensation.md R134, R135: TEMP_COMP's two errors, in their order; no result register changes. -/
def Obligations.TempCompErrors : Prop :=
  (∀ s : State, commitTick s → s.eng.snap.calValid = false → exec .tempComp s = .next (ended .notCalibrated s)) ∧
  (∀ (s : State) (x1 d b5 dc : Int), commitTick s → s.eng.snap.calValid = true →
    temperatureChain s.eng.snap x1 d b5 dc → d = 0 →
    exec .tempComp s = .next (ended .arithmetic s))

/-- 41_compensation.md R125, R126, R130, R131, R132, R136: PRES_COMP's result. -/
def Obligations.PresCompComputesThePressure : Prop :=
  ∀ (s : State) (x1 d b5 dc b4 up p : Int), commitTick s →
    s.eng.snap.calValid = true → s.eng.snap.mode.toNat ≤ 3 →
    temperatureChain s.eng.snap x1 d b5 dc → d ≠ 0 → b4Chain s.eng.snap b5 b4 → b4 ≠ 0 →
    pressureChain s.eng.snap s.eng.snap.mode.toNat b5 b4 up p →
    exec .presComp s = .next (ended .ok { s with temp := temperatureRegs b5 dc, pres := pressureRegs up p })

/-- 41_compensation.md R140, and R142's pseudocode: ALT_COMP commits PRES_COMP's registers and ALT, the function of R140
of the pressure and the snapshot's SEALEVEL, each operation rounded once in the order written. That R140 is followed
against R142's corner sentences is the model's choice at a zero SEALEVEL with p = 0 (log 21) and at an infinite SEALEVEL
of the other sign than p (log 22). -/
def Obligations.AltCompComputesTheAltitude : Prop :=
  ∀ (s : State) (x1 d b5 dc b4 up p : Int), commitTick s →
    s.eng.snap.calValid = true → s.eng.snap.mode.toNat ≤ 3 →
    temperatureChain s.eng.snap x1 d b5 dc → d ≠ 0 → b4Chain s.eng.snap b5 b4 → b4 ≠ 0 →
    pressureChain s.eng.snap s.eng.snap.mode.toNat b5 b4 up p →
    let qf := f64Div (f64OfInt p) s.eng.snap.sealevel
    let r := Config.pow.fn qf 0x3FC85B95CCD9456C
    let alt := f64Mul 0x40E5A54000000000 (f64Sub 0x3FF0000000000000 r)
    exec .altComp s =
      .next (ended .ok { s with
        temp := temperatureRegs b5 dc, pres := pressureRegs up p
        alt := if f64IsNaN alt then 0x7FF8000000000000 else alt })

/-- 41_compensation.md R134, R136, R142: the errors of PRES_COMP and ALT_COMP, the same in the same order; on an error
no result register changes. -/
def Obligations.PressureErrorsInOrder : Prop :=
  ∀ (i : Instr) (s : State) (x1 d b5 dc b4 : Int), (i = .presComp ∨ i = .altComp) → commitTick s →
    (s.eng.snap.calValid = false → exec i s = .next (ended .notCalibrated s)) ∧
    (s.eng.snap.calValid = true → 3 < s.eng.snap.mode.toNat → exec i s = .next (ended .invalidMode s)) ∧
    (s.eng.snap.calValid = true → s.eng.snap.mode.toNat ≤ 3 → temperatureChain s.eng.snap x1 d b5 dc → d = 0 →
      exec i s = .next (ended .arithmetic s)) ∧
    (s.eng.snap.calValid = true → s.eng.snap.mode.toNat ≤ 3 → temperatureChain s.eng.snap x1 d b5 dc → d ≠ 0 →
      b4Chain s.eng.snap b5 b4 → b4 = 0 → exec i s = .next (ended .arithmetic s))

/-- 42_singlewire.md R161, R162, R167: SW_CHECK on a frame that passes. -/
def Obligations.SwCheckConvertsAPassingFrame : Prop :=
  ∀ (s : State) (f0 f1 f2 f3 f4 : Byte), commitTick s →
    s.eng.snap.frame0 = f0 ++ f1 ++ f2 ++ f3 → s.eng.snap.frame1 = f4 →
    (f0.toNat + f1.toNat + f2.toNat + f3.toNat) % 256 = f4.toNat →
    let hum := f64Div (f64OfInt (256 * f0.toNat + f1.toNat)) 0x4024000000000000
    let cel := f64Div (f64OfInt (256 * f2.toNat + f3.toNat)) 0x4024000000000000
    exec .swCheck s =
      .next (ended .ok { s with
        swsum := f4
        sw := { swraw := f0 ++ f1 ++ f2 ++ f3, hum := hum, swunit := s.eng.snap.unit
                swtemp := (match s.eng.snap.unit with
                  | .celsius => cel
                  | .fahrenheit => f64Fma cel 0x3FFCCCCCCCCCCCCD 0x4040000000000000
                  | .kelvin => f64Add cel 0x4071126666666666) } })

/-- 42_singlewire.md R161, R167: SW_CHECK on a frame that fails writes SWSUM "and nothing else". -/
def Obligations.SwCheckMismatchWritesOnlyTheSum : Prop :=
  ∀ (s : State) (f0 f1 f2 f3 f4 sum : Byte), commitTick s →
    s.eng.snap.frame0 = f0 ++ f1 ++ f2 ++ f3 → s.eng.snap.frame1 = f4 →
    sum.toNat = (f0.toNat + f1.toNat + f2.toNat + f3.toNat) % 256 → sum ≠ f4 →
    exec .swCheck s = .next (ended .checksum { s with swsum := sum })

/-- 42_singlewire.md R160, R161, R162, R166: SW_READ's SW_FINISH on 40 received bits whose checksum passes. -/
def Obligations.SwReadCommitsAPassingFrame : Prop :=
  ∀ (s : State) (f0 f1 f2 f3 f4 : Byte), readingIn .swFinish s →
    s.eng.shreg = f0 ++ f1 ++ f2 ++ f3 ++ f4 →
    (f0.toNat + f1.toNat + f2.toNat + f3.toNat) % 256 = f4.toNat →
    let hum := f64Div (f64OfInt (256 * f0.toNat + f1.toNat)) 0x4024000000000000
    let cel := f64Div (f64OfInt (256 * f2.toNat + f3.toNat)) 0x4024000000000000
    exec .swRead s =
      .next (ended .ok { s with
        frame := { frame0 := f0 ++ f1 ++ f2 ++ f3, frame1 := f4 }
        eng := { s.eng with endstate := .swFinish }
        swsum := f4
        sw := { swraw := f0 ++ f1 ++ f2 ++ f3, hum := hum, swunit := s.eng.snap.unit
                swtemp := (match s.eng.snap.unit with
                  | .celsius => cel
                  | .fahrenheit => f64Fma cel 0x3FFCCCCCCCCCCCCD 0x4040000000000000
                  | .kelvin => f64Add cel 0x4071126666666666) } })

/-- 42_singlewire.md R160, R161, R166: SW_FINISH on a failing checksum writes the frame, the sum and ENDSTATE. -/
def Obligations.SwReadKeepsAFailingFrame : Prop :=
  ∀ (s : State) (f0 f1 f2 f3 f4 sum : Byte), readingIn .swFinish s →
    s.eng.shreg = f0 ++ f1 ++ f2 ++ f3 ++ f4 →
    sum.toNat = (f0.toNat + f1.toNat + f2.toNat + f3.toNat) % 256 → sum ≠ f4 →
    exec .swRead s =
      .next (ended .checksum { s with
        frame := { frame0 := f0 ++ f1 ++ f2 ++ f3, frame1 := f4 }
        eng := { s.eng with endstate := .swFinish }
        swsum := sum })

/-- 60_exceptions.md R197: before its commit tick a COMPUTE command other than NOP only counts. -/
def Obligations.ComputeOnlyCountsBeforeItsCommit : Prop :=
  ∀ (i : Instr) (s : State), i ≠ .nop → i ≠ .swRead → s.status.busy = true →
    s.eng.cnt.toNat + 1 ≠ s.par.lastCompTick.toNat + 1 → exec i s = .next (counted s)

/-! ## The phases of SW_READ -/

/-- 42_singlewire.md R150, R151: PREP is one tick; START_LOW drives the line Low for exactly START_MS × 1000 ticks and
RELEASE drives it High for exactly RELEASE_US ticks, whatever the line shows. -/
def Obligations.StartSignalTiming : Prop :=
  (∀ s : State, readingIn .prep s → swOe s = true ∧ swO s = .high ∧ exec .swRead s = .next (moved .startLow s)) ∧
  (∀ s : State, readingIn .startLow s →
    exec .swRead s =
      .next (if s.eng.cnt.toNat + 1 = s.eng.snap.startMs.toNat * 1000 then moved .release s else counted s)) ∧
  (∀ s : State, readingIn .release s →
    exec .swRead s =
      .next (if s.eng.cnt.toNat + 1 = s.eng.snap.releaseUs.toNat then moved .ackLow s else counted s)) ∧
  (∀ (s : State) (ls : List Level), readingIn .startLow s → s.eng.cnt = 0 →
    ls.length < s.eng.snap.startMs.toNat * 1000 →
    ∃ t, runTicks ls s = .next t ∧ readingIn .startLow t ∧ swOe t = true ∧ swO t = .low) ∧
  (∀ (s : State) (ls : List Level) (l : Level), readingIn .startLow s → s.eng.cnt = 0 →
    ls.length + 1 = s.eng.snap.startMs.toNat * 1000 →
    runTicks (ls ++ [l]) s = .next (sampled l (moved .release s))) ∧
  (∀ (s : State) (ls : List Level), readingIn .release s → s.eng.cnt = 0 → ls.length < s.eng.snap.releaseUs.toNat →
    ∃ t, runTicks ls s = .next t ∧ readingIn .release t ∧ swOe t = true ∧ swO t = .high) ∧
  (∀ (s : State) (ls : List Level) (l : Level), readingIn .release s → s.eng.cnt = 0 →
    ls.length + 1 = s.eng.snap.releaseUs.toNat →
    runTicks (ls ++ [l]) s = .next (sampled l (moved .ackLow s)) ∧ swOe (moved .ackLow s) = false)

/-- 42_singlewire.md R152: the acknowledge waits ACK_LOW and ACK_HIGH are the level wait of R155, with its timeout
(R156). -/
def Obligations.AcknowledgeWaits : Prop :=
  ∀ (s : State) (q next : Seq) (v : Level), (q, v, next) = (.ackLow, .low, .ackHigh) ∨
      (q, v, next) = (.ackHigh, .high, .bitEdge) →
    readingIn q s →
    (s.eng.swI = v → exec .swRead s = .next (moved next s)) ∧
    (s.eng.swI ≠ v → s.eng.snap.waitLimit ≠ 0 → s.eng.cnt.toNat + 1 = s.eng.snap.waitLimit.toNat →
      exec .swRead s = .next (ended .timeout { s with eng := { s.eng with endstate := q } })) ∧
    (s.eng.swI ≠ v → s.eng.snap.waitLimit = 0 ∨ s.eng.cnt.toNat + 1 ≠ s.eng.snap.waitLimit.toNat →
      exec .swRead s = .next (counted s))

/-- 42_singlewire.md R153: BIT_EDGE waits for Low; BIT_DELAY then takes 40 ticks, of which only the last one's sample is
shifted in, at the least significant end. -/
def Obligations.BitSampledFortyTicksAfterTheEdge : Prop :=
  (∀ s : State, readingIn .bitEdge s → s.eng.swI = .low → exec .swRead s = .next (moved .bitDelay s)) ∧
  (∀ s : State, readingIn .bitEdge s → s.eng.swI = .high → s.eng.snap.waitLimit ≠ 0 →
    s.eng.cnt.toNat + 1 = s.eng.snap.waitLimit.toNat →
    exec .swRead s = .next (ended .timeout { s with eng := { s.eng with endstate := .bitEdge } })) ∧
  (∀ s : State, readingIn .bitEdge s → s.eng.swI = .high →
    s.eng.snap.waitLimit = 0 ∨ s.eng.cnt.toNat + 1 ≠ s.eng.snap.waitLimit.toNat →
    exec .swRead s = .next (counted s)) ∧
  (∀ s : State, readingIn .bitDelay s → s.eng.cnt ≠ 39 → exec .swRead s = .next (counted s)) ∧
  (∀ (s : State) (ls : List Level) (l : Level), readingIn .bitDelay s → s.eng.cnt = 0 → ls.length = 39 →
    runTicks (ls ++ [l]) s =
      .next (sampled l (moved .bitRestore { s with eng := { s.eng with
        shreg := s.eng.shreg.extractLsb' 0 39 ++ (if l = .high then 1#1 else 0#1) } })))

/-- 42_singlewire.md R154: BIT_RESTORE, after every one of the 40 bits. -/
def Obligations.BitRestoreCountsTheBit : Prop :=
  ∀ s : State, readingIn .bitRestore s →
    (s.eng.swI = .high →
      exec .swRead s =
        .next (moved (if s.eng.bitidx + 1 = 40 then .swFinish else .bitEdge)
          { s with eng := { s.eng with bitidx := s.eng.bitidx + 1 } })) ∧
    (s.eng.swI = .low → s.eng.snap.waitLimit ≠ 0 → s.eng.cnt.toNat + 1 = s.eng.snap.waitLimit.toNat →
      exec .swRead s = .next (ended .timeout { s with eng := { s.eng with endstate := .bitRestore } })) ∧
    (s.eng.swI = .low → s.eng.snap.waitLimit = 0 ∨ s.eng.cnt.toNat + 1 ≠ s.eng.snap.waitLimit.toNat →
      exec .swRead s = .next (counted s))

/-- 10_state.md R64: the line port is a function of `seq` alone, and SWCP drives the line only in PREP, START_LOW and
RELEASE. -/
def Obligations.LinePortFollowsSeq : Prop :=
  ∀ s : State,
    (s.eng.seq = .prep → swOe s = true ∧ swO s = .high) ∧
    (s.eng.seq = .startLow → swOe s = true ∧ swO s = .low) ∧
    (s.eng.seq = .release → swOe s = true ∧ swO s = .high) ∧
    (s.eng.seq ≠ .prep → s.eng.seq ≠ .startLow → s.eng.seq ≠ .release → swOe s = false ∧ swO s = .high)

/-! ## Frames and whole-machine rules -/

/-- 10_state.md R65, 60_exceptions.md R196, R201: what a tick or the acceptance of each command leaves unchanged. -/
def Obligations.CommandFrames : Prop :=
  ∀ (i : Instr) (s t : State), exec i s = .next t →
    t.par = s.par ∧ t.rstN = s.rstN ∧ t.div = s.div ∧ t.host = s.host ∧ t.resp = s.resp ∧ t.inputs = s.inputs ∧
    t.lineIn = s.lineIn ∧ t.draws = s.draws ∧ t.status.ovr = s.status.ovr ∧ t.eng.swI = s.eng.swI ∧
    (i ≠ .calLoad → t.status.calValid = s.status.calValid) ∧
    (i ≠ .swRead → t.eng.endstate = s.eng.endstate ∧ t.eng.bitidx = s.eng.bitidx ∧ t.eng.shreg = s.eng.shreg) ∧
    (s.status.busy = true →
      t.eng.snap = s.eng.snap ∧ t.eng.cmd = s.eng.cmd ∧ t.status.lastop = s.status.lastop) ∧
    (∀ off, off ∉ writtenOffsets i → readOffset off t = readOffset off s)

/-- 10_state.md R33, R43: CAL_VALID is set, and a coefficient changes, only by the commit of a CAL_LOAD whose identity
byte matches, or by reset; CAL_VALID is cleared only by reset. -/
def Obligations.OnlyCalLoadWritesTheCalibrationStore : Prop :=
  ∀ s t : State, step s = .next t → ¬ resets s →
    (s.status.calValid = true → t.status.calValid = true) ∧
    (t.status.calValid ≠ s.status.calValid ∨ t.coef ≠ s.coef →
      s.status.busy = true ∧ s.eng.cmd = 0x00000001 ∧ s.eng.snap.calid = s.par.expectedId ∧
      t.status.busy = false ∧ t.status.errcode = .ok ∧ t.status.calValid = true)

/-- 10_state.md R65: who writes each group of registers. Outside reset, a group changes only at a host write, or at the
commit of one of the commands named for it. -/
def Obligations.EachRegisterGroupHasItsWriters : Prop :=
  ∀ s t : State, step s = .next t → ¬ resets s →
    let commits := fun (words : List Word) => s.status.busy = true ∧ s.eng.cmd ∈ words ∧ t.status.busy = false
    (t.host ≠ s.host → ∃ off w, writesNext off w s) ∧
    (t.frame ≠ s.frame → (∃ w, writesNext 0x0C0 w s ∨ writesNext 0x0C4 w s) ∨ commits [0x00000010]) ∧
    (t.coef ≠ s.coef ∨ t.status.calValid ≠ s.status.calValid → commits [0x00000001]) ∧
    (t.temp ≠ s.temp → commits [0x00000002, 0x00000003, 0x00000004]) ∧
    (t.pres ≠ s.pres → commits [0x00000003, 0x00000004]) ∧
    (t.alt ≠ s.alt → commits [0x00000004]) ∧
    (t.swsum ≠ s.swsum ∨ t.sw ≠ s.sw → commits [0x00000010, 0x00000011])

/-- 10_state.md R32: OVR is set exactly by a CMD write while BUSY = 1, and cleared only by a host write of 1 to bit 2 of
STATUS, or by reset. -/
def Obligations.OverrunSetAndCleared : Prop :=
  ∀ s t : State, step s = .next t → ¬ resets s →
    (s.status.ovr = false → t.status.ovr = true → s.status.busy = true ∧ ∃ w, writesNext 0x010 w s) ∧
    (s.rstN = true → s.status.busy = true → (∃ w, writesNext 0x010 w s) → t.status.ovr = true) ∧
    (s.status.ovr = true → t.status.ovr = false → ∃ w, writesNext 0x014 w s ∧ w.getLsbD 2 = true) ∧
    (s.rstN = true → (∃ w, writesNext 0x014 w s ∧ w.getLsbD 2 = true) → t.status.ovr = false)

/-- 10_state.md R31: DONE is set at every commit and at nothing else, and cleared exactly by an acceptance, by a host
write of 1 to bit 1 of STATUS, or by reset; writing 0 to the bit has no effect. -/
def Obligations.DoneSetAndCleared : Prop :=
  (∀ s t : State, step s = .next t → ¬ resets s →
    (s.status.busy = true → t.status.busy = false → t.status.done = true) ∧
    (s.status.done = false → t.status.done = true → s.status.busy = true ∧ t.status.busy = false) ∧
    (s.rstN = true → s.status.busy = false → (∃ w, writesNext 0x010 w s) → t.status.done = false) ∧
    (s.rstN = true → (∃ w, writesNext 0x014 w s ∧ w.getLsbD 1 = true) → t.status.done = false) ∧
    (s.rstN = true → (∃ w, writesNext 0x014 w s ∧ w.getLsbD 1 = false) → t.status.done = s.status.done) ∧
    (s.status.done = true → t.status.done = false →
      (s.status.busy = false ∧ ∃ w, writesNext 0x010 w s) ∨ ∃ w, writesNext 0x014 w s ∧ w.getLsbD 1 = true)) ∧
  (∀ p : Params, (State.resetOf p).status.done = false)

/-- 10_state.md R31, R34: outside reset, ERRCODE changes, DONE rises and BUSY falls only together, at a commit. -/
def Obligations.ErrcodeWrittenOnlyAtACommit : Prop :=
  ∀ s t : State, step s = .next t → ¬ resets s →
    (t.status.errcode ≠ s.status.errcode ∨ (s.status.done = false ∧ t.status.done = true) ∨
        (s.status.busy = true ∧ t.status.busy = false) →
      s.status.busy = true ∧ t.status.busy = false ∧ t.status.done = true ∧ t.eng.seq = .idle)

/-- 60_exceptions.md R205: `irq` is the level CTRL.IE AND STATUS.DONE; the host's writes to STATUS and CTRL act on it at
once. -/
def Obligations.InterruptLevel : Prop :=
  (∀ s : State, irq s = true ↔ (s.host.ie = true ∧ s.status.done = true)) ∧
  (∀ (s : State) (v : Word), v.getLsbD 1 = true → irq (writeReg .status v s) = false) ∧
  (∀ (s : State) (v : Word), v.getLsbD 0 = false → irq (writeReg .ctrl v s) = false) ∧
  (∀ (s : State) (v : Word), s.status.done = true → v.getLsbD 0 = true → irq (writeReg .ctrl v s) = true) ∧
  (∀ (i : Instr) (s t : State), s.status.busy = false → exec i s = .next t → irq t = false) ∧
  (∀ (e : ErrCode) (s : State), irq (ended e s) = s.host.ie) ∧
  (∀ s t : State, step s = .next t → ¬ resets s → s.status.busy = true → t.status.busy = false →
    irq t = s.host.ie ∧ t.host = s.host) ∧
  (∀ p : Params, irq (State.resetOf p) = false)

/-! ## The register window -/

/-- 10_state.md R20: the offsets of the registers, and that a 32-bit host read or write event at a register's offset
reads or writes that register. The write to CMD is R194's and R195's. Where the bus's answer is kept is the model's
choice (log 11). -/
def Obligations.WindowReachesEveryRegister : Prop :=
  (regOffset .blkid = 0x000 ∧ regOffset .ctrl = 0x004 ∧ regOffset .mode = 0x008 ∧ regOffset .timing = 0x00C ∧
    regOffset .cmd = 0x010 ∧ regOffset .status = 0x014 ∧ regOffset .seq = 0x018 ∧ regOffset .modeinfo = 0x01C ∧
    regOffset .devinfo = 0x020 ∧ regOffset .calid = 0x024 ∧ regOffset .rawt = 0x028 ∧ regOffset .rawp = 0x02C ∧
    regOffset .sealevelLo = 0x030 ∧ regOffset .sealevelHi = 0x034 ∧ regOffset .coefAc1 = 0x040 ∧
    regOffset .coefAc2 = 0x044 ∧ regOffset .coefAc3 = 0x048 ∧ regOffset .coefAc4 = 0x04C ∧ regOffset .coefAc5 = 0x050 ∧
    regOffset .coefAc6 = 0x054 ∧ regOffset .coefB1 = 0x058 ∧ regOffset .coefB2 = 0x05C ∧ regOffset .coefMb = 0x060 ∧
    regOffset .coefMc = 0x064 ∧ regOffset .coefMd = 0x068 ∧ regOffset .b5 = 0x080 ∧ regOffset .tempDc = 0x084 ∧
    regOffset .tempLo = 0x088 ∧ regOffset .tempHi = 0x08C ∧ regOffset .up = 0x090 ∧ regOffset .pressPa = 0x094 ∧
    regOffset .pressLo = 0x098 ∧ regOffset .pressHi = 0x09C ∧ regOffset .altLo = 0x0A0 ∧ regOffset .altHi = 0x0A4 ∧
    regOffset .frame0 = 0x0C0 ∧ regOffset .frame1 = 0x0C4 ∧ regOffset .swsum = 0x0C8 ∧ regOffset .swraw = 0x0CC ∧
    regOffset .humLo = 0x0D0 ∧ regOffset .humHi = 0x0D4 ∧ regOffset .swtempLo = 0x0D8 ∧ regOffset .swtempHi = 0x0DC ∧
    regOffset .swunit = 0x0E0 ∧ ∀ i : Fin 22, regOffset (.calbyte i) = 0x100 + 4 * i.val) ∧
  (∀ (r : Reg) (s : State) (rest : List Event), s.rstN = true → s.inputs = .hostRead (regOffset r) 4 :: rest →
    step s = .next { s with inputs := rest, resp := .data (readReg r s) }) ∧
  (∀ (r : Reg) (v : Word) (s : State) (rest : List Event), s.rstN = true → r ≠ .cmd →
    s.inputs = .hostWrite (regOffset r) 4 v :: rest →
    ∃ t, step s = .next t ∧ t = { writeReg r v s with inputs := rest, resp := t.resp })

/-- 10_state.md R21 to R57: what a read of each register returns, bit field by bit field, reserved bits being 0.
MODEINFO's fields are `ModeInfoReportsTheConstants`. -/
def Obligations.RegistersReadTheirFields : Prop :=
  ∀ s : State,
    (let v := (readReg .status s).toNat
     v % 2 = s.status.busy.toNat ∧ v / 2 % 2 = s.status.done.toNat ∧ v / 4 % 2 = s.status.ovr.toNat ∧
     v / 8 % 2 = s.status.calValid.toNat ∧ v / 16 % 16 = 0 ∧ v / 256 % 16 = errorNumber s.status.errcode ∧
     v / 4096 % 16 = 0 ∧ v / 65536 % 256 = s.status.lastop.toNat ∧ v / 16777216 = 0) ∧
    (let v := (readReg .seq s).toNat
     v % 16 = seqNumber s.eng.seq ∧ v / 16 % 16 = seqNumber s.eng.endstate ∧
     (s.eng.bitidx ≤ 40 → v / 256 % 64 = s.eng.bitidx) ∧ v / 16384 = 0) ∧
    (readReg .ctrl s).toNat = s.host.ie.toNat + 2 * unitNumber s.host.unit ∧
    (readReg .timing s).toNat =
      s.host.startMs.toNat + 256 * s.host.releaseUs.toNat + 65536 * s.host.waitLimit.toNat ∧
    (readReg .devinfo s).toNat =
      s.par.expectedId.toNat + 256 * s.par.tempCmd.toNat + 65536 * s.par.pressCmdBase.toNat ∧
    readReg .blkid s = 0x53574350 ∧ readReg .cmd s = 0 ∧
    (readReg .mode s).toNat = s.host.mode.toNat ∧ (readReg .calid s).toNat = s.host.calid.toNat ∧
    (readReg .rawt s).toNat = s.host.rawt.toNat ∧ (readReg .rawp s).toNat = s.host.rawp.toNat ∧
    (readReg .sealevelHi s ++ readReg .sealevelLo s : F64) = s.host.sealevel ∧
    (readReg .coefAc1 s).toInt = s.coef.ac1.toInt ∧ (readReg .coefAc2 s).toInt = s.coef.ac2.toInt ∧
    (readReg .coefAc3 s).toInt = s.coef.ac3.toInt ∧ (readReg .coefAc4 s).toNat = s.coef.ac4.toNat ∧
    (readReg .coefAc5 s).toNat = s.coef.ac5.toNat ∧ (readReg .coefAc6 s).toNat = s.coef.ac6.toNat ∧
    (readReg .coefB1 s).toInt = s.coef.b1.toInt ∧ (readReg .coefB2 s).toInt = s.coef.b2.toInt ∧
    (readReg .coefMb s).toInt = s.coef.mb.toInt ∧ (readReg .coefMc s).toInt = s.coef.mc.toInt ∧
    (readReg .coefMd s).toInt = s.coef.md.toInt ∧
    readReg .b5 s = s.temp.b5 ∧ readReg .tempDc s = s.temp.tempDc ∧
    (readReg .tempHi s ++ readReg .tempLo s : F64) = s.temp.temp ∧
    readReg .up s = s.pres.up ∧ readReg .pressPa s = s.pres.pressPa ∧
    (readReg .pressHi s ++ readReg .pressLo s : F64) = s.pres.press ∧
    (readReg .altHi s ++ readReg .altLo s : F64) = s.alt ∧
    readReg .frame0 s = s.frame.frame0 ∧ (readReg .frame1 s).toNat = s.frame.frame1.toNat ∧
    (readReg .swsum s).toNat = s.swsum.toNat ∧ readReg .swraw s = s.sw.swraw ∧
    (readReg .humHi s ++ readReg .humLo s : F64) = s.sw.hum ∧
    (readReg .swtempHi s ++ readReg .swtempLo s : F64) = s.sw.swtemp ∧
    (readReg .swunit s).toNat = unitNumber s.sw.swunit ∧
    (∀ i : Fin 22, (readReg (.calbyte i) s).toNat = s.host.calbyte[i.val].toNat)

/-- 10_state.md R25, R39 to R42, R51, R57, R24; 20_memory.md R73: a write to each read/write register stores its
field, which reads back with the reserved bits 0, and no other register reads otherwise than before, but for MODEINFO,
which follows MODE (R37). CTRL and TIMING are `WarlFieldsStoreLegalValues`. -/
def Obligations.WrittenFieldsReadBack : Prop :=
  (∀ (v : Word) (s : State),
    (readReg .mode (writeReg .mode v s)).toNat = v.toNat % 2 ^ 8 ∧
    (readReg .calid (writeReg .calid v s)).toNat = v.toNat % 2 ^ 8 ∧
    (readReg .rawt (writeReg .rawt v s)).toNat = v.toNat % 2 ^ 16 ∧
    (readReg .rawp (writeReg .rawp v s)).toNat = v.toNat % 2 ^ 24 ∧
    readReg .sealevelLo (writeReg .sealevelLo v s) = v ∧ readReg .sealevelHi (writeReg .sealevelHi v s) = v ∧
    readReg .frame0 (writeReg .frame0 v s) = v ∧
    (readReg .frame1 (writeReg .frame1 v s)).toNat = v.toNat % 2 ^ 8 ∧
    (∀ i : Fin 22, (readReg (.calbyte i) (writeReg (.calbyte i) v s)).toNat = v.toNat % 2 ^ 8)) ∧
  (∀ (r r' : Reg) (v : Word) (s : State), r' ≠ r → ¬ (r = .mode ∧ r' = .modeinfo) →
    readReg r' (writeReg r v s) = readReg r' s) ∧
  (∀ (r : Reg) (v : Word) (s : State),
    writeReg r v s = { s with
      host := (writeReg r v s).host, frame := (writeReg r v s).frame, status := (writeReg r v s).status })

/-- 20_memory.md R71: an access that is not 32 bits wide or not aligned changes no state and gets the error response,
a read with the value 0. That the machine goes on after it, and where the answer is kept, are the model's choices
(logs 8 and 11). -/
def Obligations.NarrowOrMisalignedAccessErrors : Prop :=
  (∀ (s : State) (rest : List Event) (off width : Nat) (v : Word), s.rstN = true → off < 4096 →
    width ≠ 4 ∨ off % 4 ≠ 0 → s.inputs = .hostWrite off width v :: rest →
    step s = .next { s with inputs := rest, resp := .writeError }) ∧
  (∀ (s : State) (rest : List Event) (off width : Nat), s.rstN = true → off < 4096 →
    width ≠ 4 ∨ off % 4 ≠ 0 → s.inputs = .hostRead off width :: rest →
    step s = .next { s with inputs := rest, resp := .readError 0 })

/-- 20_memory.md R73: a read has no side effect, a turn of the host's WAIT loop included, and the same write made twice
is made once, for every register but CMD. Where the bus's answer is kept, and the one clock cycle before WAIT's next
turn, are the model's choices (logs 11 and 14). -/
def Obligations.ReadsHaveNoEffectAndWritesAreIdempotent : Prop :=
  (∀ (s : State) (rest : List Event) (off : Nat), s.rstN = true → off < 4096 → off % 4 = 0 →
    s.inputs = .hostRead off 4 :: rest →
    step s = .next { s with inputs := rest, resp := .data (readOffset off s) }) ∧
  (∀ (s : State) (rest : List Event), s.rstN = true → s.inputs = .wait :: rest →
    step s = .next { s with
      inputs := if s.status.busy then .clk :: .wait :: rest else rest, resp := .data (readReg .status s) }) ∧
  (∀ (r : Reg) (v : Word) (s : State), writeReg r v (writeReg r v s) = writeReg r v s)

/-- 10_state.md R58: an unlisted offset reads 0 and ignores writes, and a write to a read-only register changes
nothing. -/
def Obligations.UnlistedAndReadOnlyIgnoreWrites : Prop :=
  (∀ (s : State) (rest : List Event) (off : Nat) (v : Word), s.rstN = true → off < 4096 → off % 4 = 0 →
    (∀ r : Reg, regOffset r ≠ off) →
    (s.inputs = .hostRead off 4 :: rest → step s = .next { s with inputs := rest, resp := .data 0 }) ∧
    (s.inputs = .hostWrite off 4 v :: rest →
      ∃ t, step s = .next t ∧ t = { s with inputs := rest, resp := t.resp })) ∧
  (∀ (r : Reg) (v : Word) (s : State),
    r ∈ [.blkid, .seq, .modeinfo, .devinfo, .coefAc1, .coefAc2, .coefAc3, .coefAc4, .coefAc5, .coefAc6, .coefB1,
      .coefB2, .coefMb, .coefMc, .coefMd, .b5, .tempDc, .tempLo, .tempHi, .up, .pressPa, .pressLo, .pressHi, .altLo,
      .altHi, .swsum, .swraw, .humLo, .humHi, .swtempLo, .swtempHi, .swunit] → writeReg r v s = s) ∧
  (∀ (v : Word) (s : State), ∃ done ovr, writeReg .status v s = { s with status := { s.status with done := done, ovr := ovr } })

/-- 10_state.md R23, R26, R27: the fields that store a legal value, read back after a write. -/
def Obligations.WarlFieldsStoreLegalValues : Prop :=
  (∀ (s : State) (v : Word),
    let t := writeReg .timing v s
    t.host.startMs.toNat = max (v.toNat % 256) 18 ∧
    t.host.releaseUs.toNat = min (max (v.toNat / 256 % 256) 20) 40 ∧
    t.host.waitLimit.toNat = v.toNat / 65536 ∧
    (readReg .timing t).toNat =
      65536 * t.host.waitLimit.toNat + 256 * t.host.releaseUs.toNat + t.host.startMs.toNat) ∧
  (∀ (s : State) (v : Word),
    let t := writeReg .ctrl v s
    t.host.ie = v.getLsbD 0 ∧
    (v.toNat / 2 % 4 = 0 → t.host.unit = .celsius) ∧ (v.toNat / 2 % 4 = 1 → t.host.unit = .fahrenheit) ∧
    (v.toNat / 2 % 4 = 2 → t.host.unit = .kelvin) ∧ (v.toNat / 2 % 4 = 3 → t.host.unit = s.host.unit) ∧
    (readReg .ctrl t).toNat / 8 = 0)

/-- 10_state.md R37, 41_compensation.md R144: MODEINFO by mode, and that each delay is at least the minimum conversion
time (given there in tenths of a millisecond). -/
def Obligations.ModeInfoReportsTheConstants : Prop :=
  ∀ s : State,
    let m := s.host.mode.toNat
    let v := (readReg .modeinfo s).toNat
    let delay := v / 256 % 256
    v % 2 = (if m ≤ 3 then 1 else 0) ∧ v / 2 % 128 = 0 ∧
    delay = (if m = 0 then 5 else if m = 1 then 8 else if m = 2 then 14 else if m = 3 then 26 else 0) ∧
    v / 65536 % 256 = (if m ≤ 3 then (s.par.pressCmdBase.toNat + m * 64) % 256 else 0) ∧
    v / 16777216 = 5 ∧
    (m = 0 → 45 ≤ 10 * delay) ∧ (m = 1 → 75 ≤ 10 * delay) ∧ (m = 2 → 135 ≤ 10 * delay) ∧ (m = 3 → 255 ≤ 10 * delay)

/-! ## Arithmetic -/

/-- 41_compensation.md R130: the normalised raw pressure and its bound, for a valid mode. -/
def Obligations.NormalisedPressureBounds : Prop :=
  ∀ sn : Snap, sn.mode.toNat ≤ 3 →
    operandOss sn = sn.mode.toNat ∧
    operandUP sn (operandOss sn) = sn.rawp.toNat / 2 ^ (8 - sn.mode.toNat) ∧
    operandUP sn (operandOss sn) < 2 ^ (16 + sn.mode.toNat)

/-- 41_compensation.md R126: the temperature outputs of an s32 b5; TEMP is never NaN and never infinite. -/
def Obligations.TemperatureOutputsAreFinite : Prop :=
  ∀ b5 : Int, -2147483648 ≤ b5 → b5 < 2147483648 →
    (tempResultOf b5).tempDc = BitVec.ofInt 32 (Int.fdiv (s32 (b5 + 8)) 16) ∧
    (tempResultOf b5).temp = f64Div (f64OfInt (Int.fdiv (s32 (b5 + 8)) 16)) 0x4024000000000000 ∧
    f64IsFinite (tempResultOf b5).temp = true

/-- 00_scope.md R12: `f64_of_int(i)` is exact for |i| < 2^53. -/
def Obligations.SmallIntegersConvertExactly : Prop :=
  ∀ i : Int, i.natAbs < 2 ^ 53 →
    ∃ (m : Nat) (e : Int), f64Value (f64OfInt i) = .fin (decide (i < 0)) m e ∧
      (m : ℚ) * (2 : ℚ) ^ e = (i.natAbs : ℚ)

/-- 00_scope.md R12: each binary64 operation on finite operands forms the exact result and rounds once, to the nearest
value, ties to even; so does the conversion of an integer. The sign of a result of a nonzero number is IEEE 754's (log
13). -/
def Obligations.FloatOperationsRoundOnce : Prop :=
  (∀ i : Int, roundsTo (i : ℚ) (f64OfInt i)) ∧
  (∀ x y : F64, finitePattern x → finitePattern y →
    roundsTo (f64Rat x + f64Rat y) (f64Add x y) ∧ roundsTo (f64Rat x - f64Rat y) (f64Sub x y) ∧
    roundsTo (f64Rat x * f64Rat y) (f64Mul x y) ∧
    (¬ zeroPattern y → roundsTo (f64Rat x / f64Rat y) (f64Div x y))) ∧
  (∀ x y z : F64, finitePattern x → finitePattern y → finitePattern z →
    roundsTo (f64Rat x * f64Rat y + f64Rat z) (f64Fma x y z))

/-- 41_compensation.md R123: division of a nonzero number by zero is an infinity, an invalid operation and an
operation on a NaN give the canonical NaN, and ALT is never another NaN, whatever the power function is. Which
operations are invalid is IEEE 754's (log 13). -/
def Obligations.FloatSpecialValues : Prop :=
  (∀ x y z : F64, nanPattern x ∨ nanPattern y →
    f64Add x y = 0x7FF8000000000000 ∧ f64Sub x y = 0x7FF8000000000000 ∧ f64Mul x y = 0x7FF8000000000000 ∧
    f64Div x y = 0x7FF8000000000000 ∧ f64Fma x y z = 0x7FF8000000000000 ∧ f64Fma x z y = 0x7FF8000000000000) ∧
  (∀ x y : F64, finitePattern x → ¬ zeroPattern x → zeroPattern y →
    infPattern (f64Div x y) ∧ (negPattern (f64Div x y) ↔ ¬ (negPattern x ↔ negPattern y))) ∧
  (∀ x y : F64, zeroPattern x → zeroPattern y → f64Div x y = 0x7FF8000000000000) ∧
  (∀ x y : F64, infPattern x → infPattern y → f64Div x y = 0x7FF8000000000000 ∧
    ((negPattern x ↔ ¬ negPattern y) → f64Add x y = 0x7FF8000000000000) ∧
    ((negPattern x ↔ negPattern y) → f64Sub x y = 0x7FF8000000000000)) ∧
  (∀ x y z : F64, zeroPattern x → infPattern y → f64Mul x y = 0x7FF8000000000000 ∧
    f64Mul y x = 0x7FF8000000000000 ∧ f64Fma x y z = 0x7FF8000000000000 ∧ f64Fma y x z = 0x7FF8000000000000) ∧
  (∀ (pow : F64 → F64 → F64) (p : Int) (ref : F64), nanPattern (altitude pow p ref) →
    altitude pow p ref = 0x7FF8000000000000)

/-- 41_compensation.md R143, R141 L1: at a sea-level reference equal to the pressure the altitude is +0.0. Stated for a
nonzero pressure: 0 / 0 is a NaN (R123, log 21). -/
def Obligations.AltitudeAtTheReferenceIsZero : Prop :=
  ∀ p : Int, -2147483648 ≤ p → p < 2147483648 → p ≠ 0 →
    altitude Config.pow.fn p (f64OfInt p) = 0

/-- 41_compensation.md R143, R141 L2: for a fixed positive reference the altitude does not increase with the pressure.
-/
def Obligations.AltitudeDoesNotIncreaseWithPressure : Prop :=
  ∀ (p1 p2 : Int) (ref : F64), 0 ≤ p1 → p1 ≤ p2 → p2 < 2147483648 → f64Lt 0 ref = true →
    f64Le (altitude Config.pow.fn p2 ref) (altitude Config.pow.fn p1 ref) = true

/-- 42_singlewire.md R161: the check is the additive sum; a change of one byte makes a passing frame fail; two changes
that cancel mod 256 are not detected; the all-zero frame passes. -/
def Obligations.ChecksumDetectsOneByte : Prop :=
  (∀ f0 f1 f2 f3 : Byte,
    (checksum (f0 ++ f1 ++ f2 ++ f3)).toNat = (f0.toNat + f1.toNat + f2.toNat + f3.toNat) % 256) ∧
  (∀ f0 f1 f2 f3 f4 d : Byte, d ≠ 0 → checksum (f0 ++ f1 ++ f2 ++ f3) = f4 →
    checksum ((f0 + d) ++ f1 ++ f2 ++ f3) ≠ f4 ∧ checksum (f0 ++ (f1 + d) ++ f2 ++ f3) ≠ f4 ∧
    checksum (f0 ++ f1 ++ (f2 + d) ++ f3) ≠ f4 ∧ checksum (f0 ++ f1 ++ f2 ++ (f3 + d)) ≠ f4 ∧
    checksum (f0 ++ f1 ++ f2 ++ f3) ≠ f4 + d) ∧
  (∀ f0 f1 f2 f3 f4 d0 d1 d2 d3 d4 : Byte, checksum (f0 ++ f1 ++ f2 ++ f3) = f4 → d0 + d1 + d2 + d3 = d4 →
    checksum ((f0 + d0) ++ (f1 + d1) ++ (f2 + d2) ++ (f3 + d3)) = f4 + d4) ∧
  (∀ f0 f1 f2 f3 f4 d : Byte, checksum (f0 ++ f1 ++ f2 ++ f3) = f4 →
    checksum ((f0 + d) ++ (f1 - d) ++ f2 ++ f3) = f4 ∧ checksum ((f0 + d) ++ f1 ++ (f2 - d) ++ f3) = f4 ∧
    checksum ((f0 + d) ++ f1 ++ f2 ++ (f3 - d)) = f4 ∧ checksum (f0 ++ (f1 + d) ++ (f2 - d) ++ f3) = f4 ∧
    checksum (f0 ++ (f1 + d) ++ f2 ++ (f3 - d)) = f4 ∧ checksum (f0 ++ f1 ++ (f2 + d) ++ (f3 - d)) = f4 ∧
    checksum ((f0 + d) ++ f1 ++ f2 ++ f3) = f4 + d) ∧
  checksum 0 = 0

/-- 42_singlewire.md R164: Fahrenheit is one fused multiply-add, so 23.5 °C is 74.3 °F and 296.65 K bit for bit. -/
def Obligations.FahrenheitIsFused : Prop :=
  (∀ raw : BitVec 16, convertTemp .fahrenheit raw =
    f64Fma (f64Div (f64OfInt raw.toNat) 0x4024000000000000) 0x3FFCCCCCCCCCCCCD 0x4040000000000000) ∧
  f64Fma 0x4037800000000000 0x3FFCCCCCCCCCCCCD 0x4040000000000000 = 0x4052933333333333 ∧
  f64Add 0x4037800000000000 0x4071126666666666 = 0x40728A6666666666 ∧
  f64Add (f64Mul 0x4037800000000000 0x3FFCCCCCCCCCCCCD) 0x4040000000000000 = 0x4052933333333334

/-! ## Invariant, isolation, progress -/

/-- The invariant of Safety.lean holds right after reset. -/
def Obligations.ResetMeetsTheInvariant : Prop := ∀ p : Params, StateInv (State.resetOf p)

/-- The invariant of Safety.lean is kept by every step, whatever the event, the line and the parameters are. -/
def Obligations.StepKeepsTheInvariant : Prop :=
  ∀ s t : State, StateInv s → step s = .next t → StateInv t

/-- 10_state.md R63, 60_exceptions.md R209: a host write to an operand or configuration register while a command is in
flight does not reach it: the write and a tick of the command, or the write event and a clock cycle, can be made in
either order. FRAME0 and FRAME1 are excluded for a SW_READ only, whose commit writes them, and STATUS because a commit
sets DONE; for these too, as for every register, the tick's results are those it has without the write. -/
def Obligations.HostWritesDoNotReachTheCommand : Prop :=
  (∀ (r : Reg) (v : Word) (s : State), s.status.busy = true → r ≠ .status →
    ((r = .frame0 ∨ r = .frame1) → s.eng.cmd ≠ 0x00000010) →
    ∃ t, engineTick s = .next t ∧ engineTick (writeReg r v s) = .next (writeReg r v t)) ∧
  (∀ (r : Reg) (v : Word) (s : State), s.status.busy = true →
    ∃ t t', engineTick s = .next t ∧ engineTick (writeReg r v s) = .next t' ∧
      t'.eng = t.eng ∧ t'.coef = t.coef ∧ t'.temp = t.temp ∧ t'.pres = t.pres ∧ t'.alt = t.alt ∧ t'.swsum = t.swsum ∧
      t'.sw = t.sw ∧ t'.status.busy = t.status.busy ∧ t'.status.calValid = t.status.calValid ∧
      t'.status.errcode = t.status.errcode ∧ t'.status.lastop = t.status.lastop) ∧
  (∀ (r : Reg) (v : Word) (s : State) (rest : List Event), s.rstN = true → r ≠ .cmd → r ≠ .status →
    ((r = .frame0 ∨ r = .frame1) → s.status.busy = true → s.eng.cmd ≠ 0x00000010) →
    ∃ a b t,
      step { s with inputs := .hostWrite (regOffset r) 4 v :: .clk :: rest } = .next a ∧ step a = .next t ∧
      step { s with inputs := .clk :: .hostWrite (regOffset r) 4 v :: rest } = .next b ∧ step b = .next t)

/-- 42_singlewire.md R165: SW_READ is a function of the snapshot and the line samples alone. Two SW_READs accepted
with equal snapshots, whatever the other registers, the parameters and the line's past are, begin with PREP, are at
every tick in the same phase given the same samples, end at the same tick, and commit the same values. -/
def Obligations.SwReadDependsOnSnapshotAndLine : Prop :=
  ∀ (s s' a a' : State) (ls : List Level), s.status.busy = false → s'.status.busy = false →
    exec .swRead s = .next a → exec .swRead s' = .next a' → a.eng.snap = a'.eng.snap →
    a.eng.seq = .prep ∧
    ∃ t t', runTicks ls a = .next t ∧ runTicks ls a' = .next t' ∧
      t.status.busy = t'.status.busy ∧ t.eng.seq = t'.eng.seq ∧ t.eng.bitidx = t'.eng.bitidx ∧
      (t.status.busy = false →
        t.status.errcode = t'.status.errcode ∧ t.eng.endstate = t'.eng.endstate ∧
        (t.status.errcode ≠ .timeout → t.frame = t'.frame ∧ t.swsum = t'.swsum) ∧
        (t.status.errcode = .ok → t.sw = t'.sw))

/-- 60_exceptions.md R197, R199: a COMPUTE command is still in flight, having only counted, before its
`P_COMP_LATENCY`-th tick, and has committed after it; NOP and an illegal word commit at the first tick. -/
def Obligations.ComputeCommandsCommitOnTime : Prop :=
  (∀ (i : Instr) (s a : State) (ls : List Level), i ≠ .nop → i ≠ .swRead → s.status.busy = false →
    exec i s = .next a → ls.length ≤ s.par.lastCompTick.toNat →
    ∃ t, runTicks ls a = .next t ∧ t.status.busy = true ∧ t.eng.cnt.toNat = ls.length ∧
      t = { a with eng := { a.eng with cnt := t.eng.cnt, swI := t.eng.swI } }) ∧
  (∀ (i : Instr) (s a : State) (ls : List Level), i ≠ .nop → i ≠ .swRead → s.status.busy = false →
    exec i s = .next a → ls.length = s.par.lastCompTick.toNat + 1 →
    ∃ t, runTicks ls a = .next t ∧ t.status.busy = false ∧ t.status.done = true ∧ t.eng.seq = .idle ∧
      t.status.lastop = opcode i) ∧
  (∀ (s a : State) (l : Level), s.status.busy = false → exec .nop s = .next a →
    ∃ t, runTicks [l] a = .next t ∧ t.status.busy = false ∧ t.status.errcode = .ok) ∧
  (∀ (s a : State) (w : Word) (l : Level), s.status.busy = false → legalWord w = false → writeCmd w s = .next a →
    ∃ t, runTicks [l] a = .next t ∧ t.status.busy = false ∧ t.status.errcode = .illegalCommand)

/-- 60_exceptions.md R199, 42_singlewire.md R157: a SW_READ accepted with WAIT_LIMIT_US = W ≠ 0 and legal timings has
committed after `START_MS·1000 + RELEASE_US + 1602 + 82·W` ticks, whatever the line does. -/
def Obligations.BoundedSwReadCommits : Prop :=
  ∀ (s a : State) (ls : List Level), s.status.busy = false → exec .swRead s = .next a →
    s.host.waitLimit ≠ 0 → 18 ≤ s.host.startMs.toNat → 20 ≤ s.host.releaseUs.toNat →
    ls.length = s.host.startMs.toNat * 1000 + s.host.releaseUs.toNat + 1602 + 82 * s.host.waitLimit.toNat →
    ∃ t, runTicks ls a = .next t ∧ t.status.busy = false

/-- 42_singlewire.md R157: a SW_READ that completes its frame takes at least `S + R + 1684` ticks: with fewer, it is
still in flight or has ended in a timeout. -/
def Obligations.CompletedSwReadTakesItsTime : Prop :=
  ∀ (s a : State) (ls : List Level), s.status.busy = false → exec .swRead s = .next a →
    18 ≤ s.host.startMs.toNat → 20 ≤ s.host.releaseUs.toNat →
    ls.length < s.host.startMs.toNat * 1000 + s.host.releaseUs.toNat + 1684 →
    ∃ t, runTicks ls a = .next t ∧ (t.status.busy = true ∨ t.status.errcode = .timeout)

/-- 60_exceptions.md R207: the hang. A SW_READ in an unbounded wait stays in it, with BUSY = 1 and no DONE, at every
step that is no reset and no tick whose line sample is the awaited level. -/
def Obligations.UnboundedWaitHangs : Prop :=
  ∀ (s t : State) (v : Level), unboundedWait s → s.status.done = false → awaited s.eng.seq = some v → ¬ resets s →
    (∀ rest, clockCycleNext rest s → s.rstN = true → s.div = s.par.clkPerTickPred → (sampleLine s).eng.swI ≠ v) →
    step s = .next t →
    unboundedWait t ∧ t.status.done = false ∧ t.eng.seq = s.eng.seq

/-- 20_memory.md R70, 43_control.md R181: the model's one fault (log 9) is a host access outside the window, and its
one refusal (log 17) is a request for a class of operation SWCP does not have; every other step answers a next state.
-/
def Obligations.StepsCompleteUnlessOutsideTheWindow : Prop :=
  ∀ s : State,
    (∃ t, step s = .next t) ∨
    (∃ off width, (s.inputs.head? = some (.hostRead off width) ∨ ∃ v, s.inputs.head? = some (.hostWrite off width v)) ∧
      4096 ≤ off ∧ step s = .fault (.outsideWindow off)) ∨
    (∃ c, s.inputs.head? = some (.absent c) ∧ step s = .refused (.absentClass c))
end

