-- ==== Sys2Proof/Laws/State.lean ====
section
/-! SUPPORT. What each shared operation does to each field of the state: one lemma per field per operation, so that no
later proof unfolds a record update. -/

namespace Sys2Proof.Machine

/-! ### commit -/

@[simp] theorem commit_par (c : ErrCode) (s : State) : (commit c s).par = s.par := rfl
@[simp] theorem commit_rstN (c : ErrCode) (s : State) : (commit c s).rstN = s.rstN := rfl
@[simp] theorem commit_div (c : ErrCode) (s : State) : (commit c s).div = s.div := rfl
@[simp] theorem commit_host (c : ErrCode) (s : State) : (commit c s).host = s.host := rfl
@[simp] theorem commit_frame (c : ErrCode) (s : State) : (commit c s).frame = s.frame := rfl
@[simp] theorem commit_status (c : ErrCode) (s : State) : (commit c s).status = statusCommit c s.status := rfl
@[simp] theorem commit_coef (c : ErrCode) (s : State) : (commit c s).coef = s.coef := rfl
@[simp] theorem commit_eng (c : ErrCode) (s : State) : (commit c s).eng = { s.eng with seq := .idle, cnt := 0 } := rfl
@[simp] theorem commit_temp (c : ErrCode) (s : State) : (commit c s).temp = s.temp := rfl
@[simp] theorem commit_pres (c : ErrCode) (s : State) : (commit c s).pres = s.pres := rfl
@[simp] theorem commit_alt (c : ErrCode) (s : State) : (commit c s).alt = s.alt := rfl
@[simp] theorem commit_swsum (c : ErrCode) (s : State) : (commit c s).swsum = s.swsum := rfl
@[simp] theorem commit_sw (c : ErrCode) (s : State) : (commit c s).sw = s.sw := rfl
@[simp] theorem commit_resp (c : ErrCode) (s : State) : (commit c s).resp = s.resp := rfl
@[simp] theorem commit_inputs (c : ErrCode) (s : State) : (commit c s).inputs = s.inputs := rfl
@[simp] theorem commit_lineIn (c : ErrCode) (s : State) : (commit c s).lineIn = s.lineIn := rfl
@[simp] theorem commit_draws (c : ErrCode) (s : State) : (commit c s).draws = s.draws := rfl

/-! ### raise -/

@[simp] theorem raise_par (c : ErrCode) (s : State) : (raise c s).par = s.par := rfl
@[simp] theorem raise_rstN (c : ErrCode) (s : State) : (raise c s).rstN = s.rstN := rfl
@[simp] theorem raise_div (c : ErrCode) (s : State) : (raise c s).div = s.div := rfl
@[simp] theorem raise_host (c : ErrCode) (s : State) : (raise c s).host = s.host := rfl
@[simp] theorem raise_frame (c : ErrCode) (s : State) : (raise c s).frame = s.frame := rfl
@[simp] theorem raise_status (c : ErrCode) (s : State) : (raise c s).status = statusCommit c s.status := rfl
@[simp] theorem raise_coef (c : ErrCode) (s : State) : (raise c s).coef = s.coef := rfl
@[simp] theorem raise_eng (c : ErrCode) (s : State) : (raise c s).eng = { s.eng with seq := .idle, cnt := 0 } := rfl
@[simp] theorem raise_temp (c : ErrCode) (s : State) : (raise c s).temp = s.temp := rfl
@[simp] theorem raise_pres (c : ErrCode) (s : State) : (raise c s).pres = s.pres := rfl
@[simp] theorem raise_alt (c : ErrCode) (s : State) : (raise c s).alt = s.alt := rfl
@[simp] theorem raise_swsum (c : ErrCode) (s : State) : (raise c s).swsum = s.swsum := rfl
@[simp] theorem raise_sw (c : ErrCode) (s : State) : (raise c s).sw = s.sw := rfl
@[simp] theorem raise_resp (c : ErrCode) (s : State) : (raise c s).resp = s.resp := rfl
@[simp] theorem raise_inputs (c : ErrCode) (s : State) : (raise c s).inputs = s.inputs := rfl
@[simp] theorem raise_lineIn (c : ErrCode) (s : State) : (raise c s).lineIn = s.lineIn := rfl
@[simp] theorem raise_draws (c : ErrCode) (s : State) : (raise c s).draws = s.draws := rfl

/-! ### count -/

@[simp] theorem count_par (s : State) : (count s).par = s.par := rfl
@[simp] theorem count_rstN (s : State) : (count s).rstN = s.rstN := rfl
@[simp] theorem count_div (s : State) : (count s).div = s.div := rfl
@[simp] theorem count_host (s : State) : (count s).host = s.host := rfl
@[simp] theorem count_frame (s : State) : (count s).frame = s.frame := rfl
@[simp] theorem count_status (s : State) : (count s).status = s.status := rfl
@[simp] theorem count_coef (s : State) : (count s).coef = s.coef := rfl
@[simp] theorem count_eng (s : State) : (count s).eng = { s.eng with cnt := s.eng.cnt + 1 } := rfl
@[simp] theorem count_temp (s : State) : (count s).temp = s.temp := rfl
@[simp] theorem count_pres (s : State) : (count s).pres = s.pres := rfl
@[simp] theorem count_alt (s : State) : (count s).alt = s.alt := rfl
@[simp] theorem count_swsum (s : State) : (count s).swsum = s.swsum := rfl
@[simp] theorem count_sw (s : State) : (count s).sw = s.sw := rfl
@[simp] theorem count_resp (s : State) : (count s).resp = s.resp := rfl
@[simp] theorem count_inputs (s : State) : (count s).inputs = s.inputs := rfl
@[simp] theorem count_lineIn (s : State) : (count s).lineIn = s.lineIn := rfl
@[simp] theorem count_draws (s : State) : (count s).draws = s.draws := rfl

/-! ### goto -/

@[simp] theorem goto_par (q : Seq) (s : State) : (goto q s).par = s.par := rfl
@[simp] theorem goto_rstN (q : Seq) (s : State) : (goto q s).rstN = s.rstN := rfl
@[simp] theorem goto_div (q : Seq) (s : State) : (goto q s).div = s.div := rfl
@[simp] theorem goto_host (q : Seq) (s : State) : (goto q s).host = s.host := rfl
@[simp] theorem goto_frame (q : Seq) (s : State) : (goto q s).frame = s.frame := rfl
@[simp] theorem goto_status (q : Seq) (s : State) : (goto q s).status = s.status := rfl
@[simp] theorem goto_coef (q : Seq) (s : State) : (goto q s).coef = s.coef := rfl
@[simp] theorem goto_eng (q : Seq) (s : State) : (goto q s).eng = { s.eng with seq := q, cnt := 0 } := rfl
@[simp] theorem goto_temp (q : Seq) (s : State) : (goto q s).temp = s.temp := rfl
@[simp] theorem goto_pres (q : Seq) (s : State) : (goto q s).pres = s.pres := rfl
@[simp] theorem goto_alt (q : Seq) (s : State) : (goto q s).alt = s.alt := rfl
@[simp] theorem goto_swsum (q : Seq) (s : State) : (goto q s).swsum = s.swsum := rfl
@[simp] theorem goto_sw (q : Seq) (s : State) : (goto q s).sw = s.sw := rfl
@[simp] theorem goto_resp (q : Seq) (s : State) : (goto q s).resp = s.resp := rfl
@[simp] theorem goto_inputs (q : Seq) (s : State) : (goto q s).inputs = s.inputs := rfl
@[simp] theorem goto_lineIn (q : Seq) (s : State) : (goto q s).lineIn = s.lineIn := rfl
@[simp] theorem goto_draws (q : Seq) (s : State) : (goto q s).draws = s.draws := rfl

/-! ### dropCommand -/

@[simp] theorem dropCommand_par (s : State) : (dropCommand s).par = s.par := rfl
@[simp] theorem dropCommand_rstN (s : State) : (dropCommand s).rstN = s.rstN := rfl
@[simp] theorem dropCommand_div (s : State) : (dropCommand s).div = s.div := rfl
@[simp] theorem dropCommand_host (s : State) : (dropCommand s).host = s.host := rfl
@[simp] theorem dropCommand_frame (s : State) : (dropCommand s).frame = s.frame := rfl
@[simp] theorem dropCommand_status (s : State) : (dropCommand s).status = statusDrop s.status := rfl
@[simp] theorem dropCommand_coef (s : State) : (dropCommand s).coef = s.coef := rfl
@[simp] theorem dropCommand_eng (s : State) : (dropCommand s).eng = s.eng := rfl
@[simp] theorem dropCommand_temp (s : State) : (dropCommand s).temp = s.temp := rfl
@[simp] theorem dropCommand_pres (s : State) : (dropCommand s).pres = s.pres := rfl
@[simp] theorem dropCommand_alt (s : State) : (dropCommand s).alt = s.alt := rfl
@[simp] theorem dropCommand_swsum (s : State) : (dropCommand s).swsum = s.swsum := rfl
@[simp] theorem dropCommand_sw (s : State) : (dropCommand s).sw = s.sw := rfl
@[simp] theorem dropCommand_resp (s : State) : (dropCommand s).resp = s.resp := rfl
@[simp] theorem dropCommand_inputs (s : State) : (dropCommand s).inputs = s.inputs := rfl
@[simp] theorem dropCommand_lineIn (s : State) : (dropCommand s).lineIn = s.lineIn := rfl
@[simp] theorem dropCommand_draws (s : State) : (dropCommand s).draws = s.draws := rfl

/-! ### writeReg -/

@[simp] theorem writeReg_par (r : Reg) (v : Word) (s : State) : (writeReg r v s).par = s.par := rfl
@[simp] theorem writeReg_rstN (r : Reg) (v : Word) (s : State) : (writeReg r v s).rstN = s.rstN := rfl
@[simp] theorem writeReg_div (r : Reg) (v : Word) (s : State) : (writeReg r v s).div = s.div := rfl
@[simp] theorem writeReg_host (r : Reg) (v : Word) (s : State) : (writeReg r v s).host = writeHostRegs r v s.host := rfl
@[simp] theorem writeReg_frame (r : Reg) (v : Word) (s : State) : (writeReg r v s).frame = writeFrame r v s.frame := rfl
@[simp] theorem writeReg_status (r : Reg) (v : Word) (s : State) : (writeReg r v s).status = if r = .status then statusW1C v s.status else s.status := rfl
@[simp] theorem writeReg_coef (r : Reg) (v : Word) (s : State) : (writeReg r v s).coef = s.coef := rfl
@[simp] theorem writeReg_eng (r : Reg) (v : Word) (s : State) : (writeReg r v s).eng = s.eng := rfl
@[simp] theorem writeReg_temp (r : Reg) (v : Word) (s : State) : (writeReg r v s).temp = s.temp := rfl
@[simp] theorem writeReg_pres (r : Reg) (v : Word) (s : State) : (writeReg r v s).pres = s.pres := rfl
@[simp] theorem writeReg_alt (r : Reg) (v : Word) (s : State) : (writeReg r v s).alt = s.alt := rfl
@[simp] theorem writeReg_swsum (r : Reg) (v : Word) (s : State) : (writeReg r v s).swsum = s.swsum := rfl
@[simp] theorem writeReg_sw (r : Reg) (v : Word) (s : State) : (writeReg r v s).sw = s.sw := rfl
@[simp] theorem writeReg_resp (r : Reg) (v : Word) (s : State) : (writeReg r v s).resp = s.resp := rfl
@[simp] theorem writeReg_inputs (r : Reg) (v : Word) (s : State) : (writeReg r v s).inputs = s.inputs := rfl
@[simp] theorem writeReg_lineIn (r : Reg) (v : Word) (s : State) : (writeReg r v s).lineIn = s.lineIn := rfl
@[simp] theorem writeReg_draws (r : Reg) (v : Word) (s : State) : (writeReg r v s).draws = s.draws := rfl

/-! ### accept -/

@[simp] theorem accept_par (w : Word) (s : State) : (accept w s).par = s.par := by unfold accept; split <;> rfl
@[simp] theorem accept_rstN (w : Word) (s : State) : (accept w s).rstN = s.rstN := by unfold accept; split <;> rfl
@[simp] theorem accept_div (w : Word) (s : State) : (accept w s).div = s.div := by unfold accept; split <;> rfl
@[simp] theorem accept_host (w : Word) (s : State) : (accept w s).host = s.host := by unfold accept; split <;> rfl
@[simp] theorem accept_frame (w : Word) (s : State) : (accept w s).frame = s.frame := by unfold accept; split <;> rfl
@[simp] theorem accept_status (w : Word) (s : State) : (accept w s).status = statusAccept w s.status := by unfold accept; split <;> rfl
@[simp] theorem accept_coef (w : Word) (s : State) : (accept w s).coef = s.coef := by unfold accept; split <;> rfl
@[simp] theorem accept_temp (w : Word) (s : State) : (accept w s).temp = s.temp := by unfold accept; split <;> rfl
@[simp] theorem accept_pres (w : Word) (s : State) : (accept w s).pres = s.pres := by unfold accept; split <;> rfl
@[simp] theorem accept_alt (w : Word) (s : State) : (accept w s).alt = s.alt := by unfold accept; split <;> rfl
@[simp] theorem accept_swsum (w : Word) (s : State) : (accept w s).swsum = s.swsum := by unfold accept; split <;> rfl
@[simp] theorem accept_sw (w : Word) (s : State) : (accept w s).sw = s.sw := by unfold accept; split <;> rfl
@[simp] theorem accept_resp (w : Word) (s : State) : (accept w s).resp = s.resp := by unfold accept; split <;> rfl
@[simp] theorem accept_inputs (w : Word) (s : State) : (accept w s).inputs = s.inputs := by unfold accept; split <;> rfl
@[simp] theorem accept_lineIn (w : Word) (s : State) : (accept w s).lineIn = s.lineIn := by unfold accept; split <;> rfl
@[simp] theorem accept_draws (w : Word) (s : State) : (accept w s).draws = s.draws := by unfold accept; split <;> rfl

/-! ### sampleLine -/

@[simp] theorem sampleLine_par (s : State) : (sampleLine s).par = s.par := by unfold sampleLine; split <;> rfl
@[simp] theorem sampleLine_rstN (s : State) : (sampleLine s).rstN = s.rstN := by unfold sampleLine; split <;> rfl
@[simp] theorem sampleLine_div (s : State) : (sampleLine s).div = s.div := by unfold sampleLine; split <;> rfl
@[simp] theorem sampleLine_host (s : State) : (sampleLine s).host = s.host := by unfold sampleLine; split <;> rfl
@[simp] theorem sampleLine_frame (s : State) : (sampleLine s).frame = s.frame := by unfold sampleLine; split <;> rfl
@[simp] theorem sampleLine_status (s : State) : (sampleLine s).status = s.status := by unfold sampleLine; split <;> rfl
@[simp] theorem sampleLine_coef (s : State) : (sampleLine s).coef = s.coef := by unfold sampleLine; split <;> rfl
@[simp] theorem sampleLine_temp (s : State) : (sampleLine s).temp = s.temp := by unfold sampleLine; split <;> rfl
@[simp] theorem sampleLine_pres (s : State) : (sampleLine s).pres = s.pres := by unfold sampleLine; split <;> rfl
@[simp] theorem sampleLine_alt (s : State) : (sampleLine s).alt = s.alt := by unfold sampleLine; split <;> rfl
@[simp] theorem sampleLine_swsum (s : State) : (sampleLine s).swsum = s.swsum := by unfold sampleLine; split <;> rfl
@[simp] theorem sampleLine_sw (s : State) : (sampleLine s).sw = s.sw := by unfold sampleLine; split <;> rfl
@[simp] theorem sampleLine_resp (s : State) : (sampleLine s).resp = s.resp := by unfold sampleLine; split <;> rfl
@[simp] theorem sampleLine_inputs (s : State) : (sampleLine s).inputs = s.inputs := by unfold sampleLine; split <;> rfl

/-! ### holdReset -/

@[simp] theorem holdReset_par (s : State) : (holdReset s).par = s.par := rfl
@[simp] theorem holdReset_rstN (s : State) : (holdReset s).rstN = false := rfl
@[simp] theorem holdReset_div (s : State) : (holdReset s).div = 0 := rfl
@[simp] theorem holdReset_host (s : State) : (holdReset s).host = HostRegs.reset := rfl
@[simp] theorem holdReset_frame (s : State) : (holdReset s).frame = { frame0 := 0, frame1 := 0 } := rfl
@[simp] theorem holdReset_status (s : State) : (holdReset s).status = Status.reset := rfl
@[simp] theorem holdReset_coef (s : State) : (holdReset s).coef = Coefs.zero := rfl
@[simp] theorem holdReset_eng (s : State) : (holdReset s).eng = Engine.reset := rfl
@[simp] theorem holdReset_temp (s : State) : (holdReset s).temp = { b5 := 0, tempDc := 0, temp := 0 } := rfl
@[simp] theorem holdReset_pres (s : State) : (holdReset s).pres = { up := 0, pressPa := 0, press := 0 } := rfl
@[simp] theorem holdReset_alt (s : State) : (holdReset s).alt = 0 := rfl
@[simp] theorem holdReset_swsum (s : State) : (holdReset s).swsum = 0 := rfl
@[simp] theorem holdReset_sw (s : State) : (holdReset s).sw = { swraw := 0, hum := 0, swtemp := 0, swunit := .celsius } := rfl
@[simp] theorem holdReset_resp (s : State) : (holdReset s).resp = s.resp := rfl
@[simp] theorem holdReset_inputs (s : State) : (holdReset s).inputs = s.inputs := rfl
@[simp] theorem holdReset_lineIn (s : State) : (holdReset s).lineIn = s.lineIn := rfl
@[simp] theorem holdReset_draws (s : State) : (holdReset s).draws = s.draws := rfl

@[simp] theorem accept_eng_swRead (s : State) :
    (accept 0x00000010 s).eng =
      { s.eng with seq := .prep, cnt := 0, bitidx := 0, shreg := 0, cmd := 0x00000010, snap := snapshot s } := rfl

theorem accept_eng_of_ne {w : Word} (h : w ≠ 0x00000010) (s : State) :
    (accept w s).eng = { s.eng with seq := .compute, cnt := 0, cmd := w, snap := snapshot s } := by
  simp only [accept, if_neg h]

@[simp] theorem accept_eng_cmd (w : Word) (s : State) : (accept w s).eng.cmd = w := by
  unfold accept; split <;> rfl

@[simp] theorem accept_eng_cnt (w : Word) (s : State) : (accept w s).eng.cnt = 0 := by
  unfold accept; split <;> rfl

@[simp] theorem accept_eng_snap (w : Word) (s : State) : (accept w s).eng.snap = snapshot s := by
  unfold accept; split <;> rfl

@[simp] theorem accept_eng_endstate (w : Word) (s : State) : (accept w s).eng.endstate = s.eng.endstate := by
  unfold accept; split <;> rfl

@[simp] theorem sampleLine_eng_cnt (s : State) : (sampleLine s).eng.cnt = s.eng.cnt := by
  unfold sampleLine; split <;> rfl

@[simp] theorem sampleLine_eng_seq (s : State) : (sampleLine s).eng.seq = s.eng.seq := by
  unfold sampleLine; split <;> rfl

@[simp] theorem sampleLine_eng_snap (s : State) : (sampleLine s).eng.snap = s.eng.snap := by
  unfold sampleLine; split <;> rfl

@[simp] theorem sampleLine_eng_cmd (s : State) : (sampleLine s).eng.cmd = s.eng.cmd := by
  unfold sampleLine; split <;> rfl

@[simp] theorem sampleLine_eng_bitidx (s : State) : (sampleLine s).eng.bitidx = s.eng.bitidx := by
  unfold sampleLine; split <;> rfl

@[simp] theorem sampleLine_eng_shreg (s : State) : (sampleLine s).eng.shreg = s.eng.shreg := by
  unfold sampleLine; split <;> rfl

@[simp] theorem sampleLine_eng_endstate (s : State) : (sampleLine s).eng.endstate = s.eng.endstate := by
  unfold sampleLine; split <;> rfl

/-! ### The flags -/

@[simp] theorem statusCommit_busy (c : ErrCode) (t : Status) : (statusCommit c t).busy = false := rfl
@[simp] theorem statusCommit_done (c : ErrCode) (t : Status) : (statusCommit c t).done = true := rfl
@[simp] theorem statusCommit_ovr (c : ErrCode) (t : Status) : (statusCommit c t).ovr = t.ovr := rfl
@[simp] theorem statusCommit_calValid (c : ErrCode) (t : Status) : (statusCommit c t).calValid = t.calValid := rfl
@[simp] theorem statusCommit_errcode (c : ErrCode) (t : Status) : (statusCommit c t).errcode = c := rfl
@[simp] theorem statusCommit_lastop (c : ErrCode) (t : Status) : (statusCommit c t).lastop = t.lastop := rfl
@[simp] theorem statusAccept_busy (w : Word) (t : Status) : (statusAccept w t).busy = true := rfl
@[simp] theorem statusAccept_done (w : Word) (t : Status) : (statusAccept w t).done = false := rfl
@[simp] theorem statusAccept_ovr (w : Word) (t : Status) : (statusAccept w t).ovr = t.ovr := rfl
@[simp] theorem statusAccept_calValid (w : Word) (t : Status) : (statusAccept w t).calValid = t.calValid := rfl
@[simp] theorem statusAccept_errcode (w : Word) (t : Status) : (statusAccept w t).errcode = t.errcode := rfl
@[simp] theorem statusAccept_lastop (w : Word) (t : Status) : (statusAccept w t).lastop = w.extractLsb' 0 8 := rfl
@[simp] theorem statusDrop_busy (t : Status) : (statusDrop t).busy = t.busy := rfl
@[simp] theorem statusDrop_done (t : Status) : (statusDrop t).done = t.done := rfl
@[simp] theorem statusDrop_ovr (t : Status) : (statusDrop t).ovr = true := rfl
@[simp] theorem statusDrop_calValid (t : Status) : (statusDrop t).calValid = t.calValid := rfl
@[simp] theorem statusDrop_errcode (t : Status) : (statusDrop t).errcode = t.errcode := rfl
@[simp] theorem statusDrop_lastop (t : Status) : (statusDrop t).lastop = t.lastop := rfl
@[simp] theorem statusW1C_busy (v : Word) (t : Status) : (statusW1C v t).busy = t.busy := rfl
@[simp] theorem statusW1C_calValid (v : Word) (t : Status) : (statusW1C v t).calValid = t.calValid := rfl
@[simp] theorem statusW1C_errcode (v : Word) (t : Status) : (statusW1C v t).errcode = t.errcode := rfl
@[simp] theorem statusW1C_lastop (v : Word) (t : Status) : (statusW1C v t).lastop = t.lastop := rfl
@[simp] theorem statusW1C_done (v : Word) (t : Status) : (statusW1C v t).done = (t.done && !v.getLsbD 1) := rfl
@[simp] theorem statusW1C_ovr (v : Word) (t : Status) : (statusW1C v t).ovr = (t.ovr && !v.getLsbD 2) := rfl

end Sys2Proof.Machine
end

