-- ==== Sys2Proof/Laws/Commands.lean ====
section
/-! SUPPORT. What each shared operation of a command can do, said once: proofs cite these and do not unfold it. -/

namespace Sys2Proof.Machine

/-! ## Acceptance or tick -/

theorem commandStep_of_busy {s : State} (h : s.status.busy = true) (w : Word) (tick : State → State) :
    commandStep w tick s = tick s := by simp [commandStep, h]

theorem commandStep_of_idle {s : State} (h : s.status.busy = false) (w : Word) (tick : State → State) :
    commandStep w tick s = accept w s := by simp [commandStep, h]

/-- The rule one tick of each command in flight performs. -/
def tickOf : Instr → State → State
  | .nop => nopTick
  | .calLoad => computeTick calLoadCommit
  | .tempComp => computeTick tempCompCommit
  | .presComp => computeTick presCompCommit
  | .altComp => computeTick altCompCommit
  | .swRead => swReadTick
  | .swCheck => computeTick swCheckCommit

/-- A command answers a next state at every event: its acceptance, or one tick of its rule. -/
theorem exec_eq (i : Instr) (s : State) : exec i s = .next (commandStep (encode i) (tickOf i) s) := by
  cases i <;> rfl

theorem exec_of_busy {s : State} (h : s.status.busy = true) (i : Instr) : exec i s = .next (tickOf i s) := by
  rw [exec_eq, commandStep_of_busy h]

theorem exec_of_idle {s : State} (h : s.status.busy = false) (i : Instr) :
    exec i s = .next (accept (encode i) s) := by
  rw [exec_eq, commandStep_of_idle h]

/-- An engine tick always answers a next state. -/
theorem engineTick_next (s : State) : ∃ t, engineTick s = .next t := by
  unfold engineTick
  split
  · split
    · exact ⟨_, exec_eq _ _⟩
    · exact ⟨_, rfl⟩
  · exact ⟨_, rfl⟩

/-- What an engine tick can do. -/
theorem engineTick_cases {s t : State} (h : engineTick s = .next t) :
    (s.status.busy = false ∧ t = count s) ∨
    (s.status.busy = true ∧ (∃ i, decode s.eng.cmd = .ok i ∧ t = tickOf i s)) ∨
    (s.status.busy = true ∧ (∃ e, decode s.eng.cmd = .error e) ∧ t = raise .illegalCommand s) := by
  unfold engineTick at h
  split at h
  · next hb =>
    split at h
    · next i hd =>
      rw [exec_of_busy hb] at h
      injection h with h
      exact .inr (.inl ⟨hb, i, hd, h.symm⟩)
    · next e hd =>
      injection h with h
      exact .inr (.inr ⟨hb, ⟨e, hd⟩, h.symm⟩)
  · next hb =>
    injection h with h
    exact .inl ⟨by simpa using hb, h.symm⟩

/-- What a clock cycle can do. -/
theorem clkCycle_cases {s t : State} (h : clkCycle s = .next t) :
    (s.rstN = false ∧ t = s) ∨
    (s.rstN = true ∧ s.div + 1 = paramClkPerTick s.par ∧ engineTick (sampleLine { s with div := 0 }) = .next t) ∨
    (s.rstN = true ∧ s.div + 1 ≠ paramClkPerTick s.par ∧ t = { s with div := s.div + 1 }) := by
  unfold clkCycle at h
  split at h
  · next hr =>
    split at h
    · next hd => exact .inr (.inl ⟨hr, hd, h⟩)
    · next hd =>
      injection h with h
      exact .inr (.inr ⟨hr, hd, h.symm⟩)
  · next hr =>
    injection h with h
    exact .inl ⟨by simpa using hr, h.symm⟩

/-- What a write of a word to CMD can do. -/
theorem writeCmd_cases {w : Word} {s t : State} (h : writeCmd w s = .next t) :
    (s.status.busy = true ∧ t = dropCommand s) ∨
    (s.status.busy = false ∧ (∃ i, decode w = .ok i ∧ t = accept (encode i) s)) ∨
    (s.status.busy = false ∧ (∃ e, decode w = .error e) ∧ t = accept w s) := by
  unfold writeCmd at h
  split at h
  · next hb =>
    injection h with h
    exact .inl ⟨hb, h.symm⟩
  · next hb =>
    have hb : s.status.busy = false := by simpa using hb
    split at h
    · next i hd =>
      rw [exec_of_idle hb] at h
      injection h with h
      exact .inr (.inl ⟨hb, i, hd, h.symm⟩)
    · next e hd =>
      injection h with h
      exact .inr (.inr ⟨hb, ⟨e, hd⟩, h.symm⟩)

/-! ## COMPUTE ticks -/

theorem computeTick_due {s : State} (h : s.eng.cnt.toNat + 1 = paramCompLatency s.par) (rule : State → State) :
    computeTick rule s = rule s := by simp [computeTick, h]

theorem computeTick_waiting {s : State} (h : s.eng.cnt.toNat + 1 ≠ paramCompLatency s.par) (rule : State → State) :
    computeTick rule s = count s := by simp [computeTick, h]

theorem calLoadCommit_cases (s : State) :
    (s.eng.snap.calid = s.par.expectedId ∧
      calLoadCommit s =
        commit .ok { s with
          coef := calDecode s.eng.snap.calbyte, status := { s.status with calValid := true } }) ∨
    (s.eng.snap.calid ≠ s.par.expectedId ∧ calLoadCommit s = raise .identityMismatch s) := by
  by_cases h : s.eng.snap.calid = s.par.expectedId
  · exact .inl ⟨h, by simp [calLoadCommit, calResult, h]⟩
  · exact .inr ⟨h, by simp [calLoadCommit, calResult, h]⟩

theorem tempCompCommit_cases (s : State) :
    (∃ b5, tempCompResult s.eng.snap = .ok b5 ∧
      tempCompCommit s = commit .ok { s with temp := tempResultOf b5 }) ∨
    (∃ e, tempCompResult s.eng.snap = .error e ∧ tempCompCommit s = raise e s) := by
  cases h : tempCompResult s.eng.snap with
  | ok b5 => exact .inl ⟨b5, rfl, by simp [tempCompCommit, h]⟩
  | error e => exact .inr ⟨e, rfl, by simp [tempCompCommit, h]⟩

theorem presCompCommit_cases (s : State) :
    (∃ o, presCompResult s.eng.snap = .ok o ∧
      presCompCommit s = commit .ok { s with temp := tempResultOf o.b5, pres := presResultOf o }) ∨
    (∃ e, presCompResult s.eng.snap = .error e ∧ presCompCommit s = raise e s) := by
  cases h : presCompResult s.eng.snap with
  | ok o => exact .inl ⟨o, rfl, by simp [presCompCommit, h]⟩
  | error e => exact .inr ⟨e, rfl, by simp [presCompCommit, h]⟩

theorem altCompCommit_cases (s : State) :
    (∃ o, presCompResult s.eng.snap = .ok o ∧
      altCompCommit s =
        commit .ok { s with
          temp := tempResultOf o.b5, pres := presResultOf o
          alt := altitude Config.pow.fn o.p s.eng.snap.sealevel }) ∨
    (∃ e, presCompResult s.eng.snap = .error e ∧ altCompCommit s = raise e s) := by
  cases h : presCompResult s.eng.snap with
  | ok o => exact .inl ⟨o, rfl, by simp [altCompCommit, h]⟩
  | error e => exact .inr ⟨e, rfl, by simp [altCompCommit, h]⟩

/-- The temperature stage raises exactly when its divisor is 0 (R125). -/
theorem tempStage_cases (ut : Int) (c : Coefs) :
    (s32 (tempX1 ut c + coefMD c) = 0 ∧ tempStage ut c = .error .arithmetic) ∨
    (s32 (tempX1 ut c + coefMD c) ≠ 0 ∧
      tempStage ut c =
        .ok (s32 (tempX1 ut c + tdiv (s32 (coefMC c * 2048)) (s32 (tempX1 ut c + coefMD c))))) := by
  by_cases h : s32 (tempX1 ut c + coefMD c) = 0
  · exact .inl ⟨h, by simp only [tempStage, if_pos h]⟩
  · exact .inr ⟨h, by simp only [tempStage, if_neg h]⟩

/-- Part 2 of the pressure stage raises exactly when b4 is 0 (R132). -/
theorem pressPart2_cases (b4 b7 : Int) :
    (b4 = 0 ∧ pressPart2 b4 b7 = .error .arithmetic) ∨
    (b4 ≠ 0 ∧ pressPart2 b4 b7 = .ok (pressCorrect (s32 (pressQuotient b4 b7)))) := by
  by_cases h : b4 = 0
  · exact .inl ⟨h, by simp only [pressPart2, if_pos h]⟩
  · exact .inr ⟨h, by simp only [pressPart2, if_neg h]⟩

/-- PRES_COMP's checks in the order of R134, and its values. -/
theorem presCompResult_cases (sn : Snap) :
    (sn.calValid = false ∧ presCompResult sn = .error .notCalibrated) ∨
    (sn.calValid = true ∧ modeValid sn.mode = false ∧ presCompResult sn = .error .invalidMode) ∨
    (sn.calValid = true ∧ modeValid sn.mode = true ∧ tempStage (operandUT sn) sn.coef = .error .arithmetic ∧
      presCompResult sn = .error .arithmetic) ∨
    (sn.calValid = true ∧ modeValid sn.mode = true ∧ ∃ b5, tempStage (operandUT sn) sn.coef = .ok b5 ∧
      ((pressPart1 sn.coef b5 (operandUP sn (operandOss sn)) (operandOss sn)).b4 = 0 ∧
          presCompResult sn = .error .arithmetic ∨
        (pressPart1 sn.coef b5 (operandUP sn (operandOss sn)) (operandOss sn)).b4 ≠ 0 ∧
          presCompResult sn =
            .ok { b5 := b5, up := operandUP sn (operandOss sn)
                  p := pressCorrect (s32 (pressQuotient
                    (pressPart1 sn.coef b5 (operandUP sn (operandOss sn)) (operandOss sn)).b4
                    (pressPart1 sn.coef b5 (operandUP sn (operandOss sn)) (operandOss sn)).b7)) })) := by
  cases hc : sn.calValid with
  | false => exact .inl ⟨rfl, by simp [presCompResult, hc]⟩
  | true =>
    cases hm : modeValid sn.mode with
    | false => exact .inr (.inl ⟨rfl, rfl, by simp [presCompResult, hc, hm]⟩)
    | true =>
      rcases tempStage_cases (operandUT sn) sn.coef with ⟨-, ht⟩ | ⟨-, ht⟩
      · exact .inr (.inr (.inl ⟨rfl, rfl, ht, by simp [presCompResult, hc, hm, ht]⟩))
      · refine .inr (.inr (.inr ⟨rfl, rfl, _, ht, ?_⟩))
        rcases pressPart2_cases
          (pressPart1 sn.coef (s32 (tempX1 (operandUT sn) sn.coef + tdiv (s32 (coefMC sn.coef * 2048))
            (s32 (tempX1 (operandUT sn) sn.coef + coefMD sn.coef)))) (operandUP sn (operandOss sn)) (operandOss sn)).b4
          (pressPart1 sn.coef (s32 (tempX1 (operandUT sn) sn.coef + tdiv (s32 (coefMC sn.coef * 2048))
            (s32 (tempX1 (operandUT sn) sn.coef + coefMD sn.coef)))) (operandUP sn (operandOss sn)) (operandOss sn)).b7
          with ⟨hb, hp⟩ | ⟨hb, hp⟩
        · exact .inl ⟨hb, by simp [presCompResult, hc, hm, ht, hp]⟩
        · exact .inr ⟨hb, by simp [presCompResult, hc, hm, ht, hp]⟩

/-- The errors PRES_COMP and ALT_COMP can raise (R134). -/
theorem presCompResult_error {sn : Snap} {e : ErrCode} (h : presCompResult sn = .error e) :
    e = .notCalibrated ∨ e = .invalidMode ∨ e = .arithmetic := by
  rcases presCompResult_cases sn with ⟨-, h1⟩ | ⟨-, -, h1⟩ | ⟨-, -, -, h1⟩ | ⟨-, -, _, -, ⟨-, h1⟩ | ⟨-, h1⟩⟩ <;>
    rw [h1] at h <;> cases h <;> simp

/-- The errors TEMP_COMP can raise (R134). -/
theorem tempCompResult_error {sn : Snap} {e : ErrCode} (h : tempCompResult sn = .error e) :
    e = .notCalibrated ∨ e = .arithmetic := by
  unfold tempCompResult at h
  split at h
  · rcases tempStage_cases (operandUT sn) sn.coef with ⟨-, h1⟩ | ⟨-, h1⟩ <;>
      rw [h1] at h <;> (cases h; try simp)
  · injection h with h
    exact .inl h.symm

/-! ## SW_READ's phases and the common end of SW_READ and SW_CHECK -/

theorem checkAndConvert_cases (f0 : Word) (f4 : Byte) (s : State) :
    (checksum f0 = f4 ∧
      checkAndConvert f0 f4 s =
        commit .ok { s with swsum := checksum f0, sw := convert s.eng.snap.unit f0 }) ∨
    (checksum f0 ≠ f4 ∧ checkAndConvert f0 f4 s = raise .checksum { s with swsum := checksum f0 }) := by
  by_cases h : checksum f0 = f4
  · exact .inl ⟨h, by simp only [checkAndConvert, if_pos h]⟩
  · exact .inr ⟨h, by simp only [checkAndConvert, if_neg h]⟩

theorem levelWait_cases (v : Level) (advance : State → State) (s : State) :
    (s.eng.swI = v ∧ levelWait v advance s = advance s) ∨
    (s.eng.swI ≠ v ∧ s.eng.snap.waitLimit ≠ 0 ∧ s.eng.cnt.toNat + 1 = s.eng.snap.waitLimit.toNat ∧
      levelWait v advance s = timeoutWait s) ∨
    (s.eng.swI ≠ v ∧ ¬ (s.eng.snap.waitLimit ≠ 0 ∧ s.eng.cnt.toNat + 1 = s.eng.snap.waitLimit.toNat) ∧
      levelWait v advance s = count s) := by
  unfold levelWait
  by_cases h : s.eng.swI = v
  · exact .inl ⟨h, if_pos h⟩
  · by_cases h2 : s.eng.snap.waitLimit ≠ 0 ∧ s.eng.cnt.toNat + 1 = s.eng.snap.waitLimit.toNat
    · exact .inr (.inl ⟨h, h2.1, h2.2, by rw [if_neg h, if_pos h2]⟩)
    · exact .inr (.inr ⟨h, h2, by rw [if_neg h, if_neg h2]⟩)

theorem fixedPhase_cases (n : Nat) (q : Seq) (s : State) :
    (s.eng.cnt.toNat + 1 = n ∧ fixedPhase n q s = goto q s) ∨
    (s.eng.cnt.toNat + 1 ≠ n ∧ fixedPhase n q s = count s) := by
  by_cases h : s.eng.cnt.toNat + 1 = n
  · exact .inl ⟨h, if_pos h⟩
  · exact .inr ⟨h, if_neg h⟩

theorem bitDelayTick_cases (s : State) :
    (s.eng.cnt = 39 ∧
      bitDelayTick s =
        goto .bitRestore { s with eng := { s.eng with shreg := shiftIn s.eng.shreg s.eng.swI } }) ∨
    (s.eng.cnt ≠ 39 ∧ bitDelayTick s = count s) := by
  by_cases h : s.eng.cnt = 39
  · exact .inl ⟨h, if_pos h⟩
  · exact .inr ⟨h, if_neg h⟩

/-! ## The altitude at a quotient of -0.0 (log 22) -/

/-- A pattern that IEEE 754 orders equal to zero is one of the two zeros. -/
theorem f64_zero_of_le_zero {x : F64} (h1 : f64Le (f64Zero false) x = true) (h2 : f64Le x (f64Zero false) = true) :
    x = f64Zero false ∨ x = f64Zero true := by
  have hk : f64Key (f64Zero false) = 0 := by decide
  simp only [f64Le, Bool.and_eq_true, decide_eq_true_eq, hk] at h1 h2
  have hm : f64Mag x = 0 := by
    have h := Int.le_antisymm h2.2 h1.2
    unfold f64Key at h
    split at h <;> omega
  simp only [f64Mag, BitVec.extractLsb'_toNat, Nat.shiftRight_zero] at hm
  have hx := x.isLt
  have h : x.toNat = 0 ∨ x.toNat = 2 ^ 63 := by omega
  rcases h with h | h
  · exact .inl (BitVec.eq_of_toNat_eq h)
  · exact .inr (BitVec.eq_of_toNat_eq h)

/-- 41_compensation.md R141: by L2 and L4 the power of -0.0 is a zero. -/
theorem pow_neg_zero (pow : PowFn) :
    pow.fn (f64Zero true) f64AltExponent = f64Zero false ∨ pow.fn (f64Zero true) f64AltExponent = f64Zero true := by
  have h1 := pow.mono (f64Zero false) (f64Zero true) (by decide) (by decide)
  have h2 := pow.mono (f64Zero true) (f64Zero false) (by decide) (by decide)
  rw [pow.zero_base] at h1 h2
  exact f64_zero_of_le_zero h1 h2

/-- 41_compensation.md R140: where pressure over reference is -0.0 the altitude is 44330.0, for every power function with
the laws. -/
theorem altitude_of_neg_zero_quotient (pow : PowFn) {p : Int} {ref : F64}
    (h : f64Div (f64OfInt p) ref = f64Zero true) : altitude pow.fn p ref = f64AltScale := by
  have he : f64Div f64One f64AltDivisor = f64AltExponent := by decide +kernel
  simp only [altitude, h, he]
  rcases pow_neg_zero pow with h | h <;> rw [h] <;> decide +kernel

end Sys2Proof.Machine
end

