-- ==== Sys2Proof/Laws/PerInstr.lean ====
section
/-! SUPPORT. Statements about every command as syntax, one lemma per constructor. -/

/-- A command's word passes both checks of 30_encoding.md rule R92, and its OPC[4] tells its family (R91). -/
def Sys2Proof.Laws.LegalWord.Statement (i : Sys2Proof.Instr) : Prop :=
  i.wf = true ∧ Sys2Proof.rsvClear (Sys2Proof.encode i) = true ∧ Sys2Proof.opcDefined (Sys2Proof.encode i) = true ∧
    ((Sys2Proof.opcode i).getLsbD 4 = true ↔ (i = .swRead ∨ i = .swCheck))

namespace Sys2Proof.Laws.LegalWord

theorem nop : Statement .nop := by unfold Statement; decide
theorem calLoad : Statement .calLoad := by unfold Statement; decide
theorem tempComp : Statement .tempComp := by unfold Statement; decide
theorem presComp : Statement .presComp := by unfold Statement; decide
theorem altComp : Statement .altComp := by unfold Statement; decide
theorem swRead : Statement .swRead := by unfold Statement; decide
theorem swCheck : Statement .swCheck := by unfold Statement; decide

end Sys2Proof.Laws.LegalWord
end

