-- ==== Sys2Proof/Laws/Window.lean ====
section
/-! SUPPORT. The register window: the map from offsets to registers and reads after writes. -/

namespace Sys2Proof.Machine

/-- Each register is found at its own offset. -/
theorem regAt_regOffset (r : Reg) : regAt (regOffset r) = some r := by
  cases r with
  | calbyte i =>
    have hi := i.isLt
    have h : 0x100 ≤ 0x100 + 4 * i.val ∧ 0x100 + 4 * i.val ≤ 0x154 ∧ (0x100 + 4 * i.val) % 4 = 0 := by omega
    have hv : (0x100 + 4 * i.val - 0x100) / 4 = i.val := by omega
    simp only [regAt, regOffset, dif_pos h, hv]
  | _ => rfl

/-- The register found at an offset has that offset. -/
theorem regOffset_of_regAt {off : Nat} {r : Reg} (h : regAt off = some r) : regOffset r = off := by
  unfold regAt at h
  split at h
  · next hc =>
    obtain rfl := Option.some.inj h
    simp only [regOffset]
    omega
  · simpa using List.find?_some h

/-- Two registers have two offsets. -/
theorem regOffset_injective {r r' : Reg} (h : regOffset r = regOffset r') : r = r' := by
  have h1 := regAt_regOffset r
  rw [h, regAt_regOffset r'] at h1
  exact (Option.some.inj h1).symm

/-- Every offset of a register is aligned and in the window. -/
theorem regOffset_lt (r : Reg) : regOffset r ≤ 0x154 ∧ regOffset r % 4 = 0 := by
  cases r with
  | calbyte i => have := i.isLt; simp only [regOffset]; omega
  | _ => decide

/-- A host read of a register's offset reads the register. -/
theorem readOffset_regOffset (r : Reg) (s : State) : readOffset (regOffset r) s = readReg r s := by
  simp only [readOffset, regAt_regOffset]

/-- The low half of a binary64 pattern put together from two words. -/
theorem loWord_append (a b : Word) : loWord (a ++ b) = b := BitVec.extractLsb'_append_eq_right

/-- The high half of a binary64 pattern put together from two words. -/
theorem hiWord_append (a b : Word) : hiWord (a ++ b) = a := BitVec.extractLsb'_append_eq_left

end Sys2Proof.Machine
end

