-- ==== Sys2Proof/Laws/Step.lean ====
section
/-! SUPPORT. What one step can do, said once, and how engine ticks compose. -/

namespace Sys2Proof.Machine

/-- What a host write access inside the window can do. -/
theorem hostWrite_cases {off width : Nat} {v : Word} {s t : State} (h : hostWrite off width v s = .next t) :
    (∃ r, t = { s with resp := r }) ∨
    (s.rstN = true ∧ width = 4 ∧ off = 0x010 ∧ writeCmd v { s with resp := .ack } = .next t) ∨
    (∃ r, r ≠ .cmd ∧ regAt off = some r ∧ s.rstN = true ∧ width = 4 ∧ t = writeReg r v { s with resp := .ack }) := by
  unfold hostWrite at h
  split at h <;> try contradiction
  split at h
  · next hr =>
    split at h
    · next ha =>
      simp only [accessLegal, Bool.and_eq_true, beq_iff_eq] at ha
      split at h
      · next hreg => exact .inr (.inl ⟨hr, ha.1, (regOffset_of_regAt hreg).symm, h⟩)
      · next r hreg hne =>
        injection h with h
        exact .inr (.inr ⟨r, hreg, hne, hr, ha.1, h.symm⟩)
      · injection h with h
        exact .inl ⟨_, h.symm⟩
    · injection h with h
      exact .inl ⟨_, h.symm⟩
  · injection h with h
    exact .inl ⟨_, h.symm⟩

/-- A host read access changes nothing but the bus's answer. -/
theorem hostRead_cases {off width : Nat} {s t : State} (h : hostRead off width s = .next t) :
    ∃ r, t = { s with resp := r } := by
  unfold hostRead at h
  split at h <;> try contradiction
  split at h
  · split at h <;> (injection h with h; exact ⟨_, h.symm⟩)
  · injection h with h
    exact ⟨_, h.symm⟩

/-- A 32-bit write at a register's offset is that register's write. -/
theorem hostWrite_reg {r : Reg} {s : State} (hr : s.rstN = true) (hc : r ≠ .cmd) (v : Word) :
    hostWrite (regOffset r) 4 v s = .next (writeReg r v { s with resp := .ack }) := by
  have ho := regOffset_lt r
  have hw : inWindow (regOffset r) = true := by simp only [inWindow, decide_eq_true_eq]; omega
  have ha : accessLegal (regOffset r) 4 = true := by simp [accessLegal, ho.2]
  simp only [hostWrite, hw, hr, ha, if_true, regAt_regOffset]

/-- A 32-bit read at a register's offset answers that register's value. -/
theorem hostRead_reg {r : Reg} {s : State} (hr : s.rstN = true) :
    hostRead (regOffset r) 4 s = .next { s with resp := .data (readReg r s) } := by
  have ho := regOffset_lt r
  have hw : inWindow (regOffset r) = true := by simp only [inWindow, decide_eq_true_eq]; omega
  have ha : accessLegal (regOffset r) 4 = true := by simp [accessLegal, ho.2]
  simp only [hostRead, hw, hr, ha, if_true, readOffset_regOffset]

/-- What a step that answers a next state did: an event without effect on SWCP's registers, the release of `rst_n`, a
reset, a CMD write, a write to another register, or a clock cycle. -/
theorem step_cases {s t : State} (h : step s = .next t) :
    (∃ r i, t = { s with resp := r, inputs := i }) ∨
    (∃ i, t = { s with rstN := true, inputs := i }) ∨
    ((s.inputs.head? = some (.rst .low) ∨ s.inputs.head? = some .powerCycle) ∧
      ∃ i, t = holdReset { s with inputs := i }) ∨
    (∃ w rest, s.rstN = true ∧ s.inputs = .hostWrite 0x010 4 w :: rest ∧
      writeCmd w { s with resp := .ack, inputs := rest } = .next t) ∨
    (∃ r off v rest, s.rstN = true ∧ s.inputs = .hostWrite off 4 v :: rest ∧ r ≠ .cmd ∧ regAt off = some r ∧
      t = writeReg r v { s with resp := .ack, inputs := rest }) ∨
    (∃ i, (s.inputs = [] ∧ i = [] ∨ s.inputs = .clk :: i) ∧ clkCycle { s with inputs := i } = .next t) := by
  unfold step nextEvent at h
  split at h
  · next hi =>
    refine .inr (.inr (.inr (.inr (.inr ⟨[], .inl ⟨hi, rfl⟩, ?_⟩))))
    have he : { s with inputs := [] } = s := by rw [← hi]
    rw [he]
    exact h
  · next e rest hi =>
    cases e with
    | hostWrite off width v =>
      simp only [handleEvent] at h
      rcases hostWrite_cases h with ⟨r, rfl⟩ | ⟨hr, rfl, rfl, hw⟩ | ⟨r, h1, h2, h3, rfl, rfl⟩
      · exact .inl ⟨_, _, rfl⟩
      · exact .inr (.inr (.inr (.inl ⟨v, rest, hr, hi, hw⟩)))
      · exact .inr (.inr (.inr (.inr (.inl ⟨r, off, v, rest, h3, hi, h1, h2, rfl⟩))))
    | hostRead off width =>
      obtain ⟨r, rfl⟩ := hostRead_cases h
      exact .inl ⟨_, _, rfl⟩
    | clk => exact .inr (.inr (.inr (.inr (.inr ⟨rest, .inr hi, h⟩))))
    | wait =>
      simp only [handleEvent, hostWait] at h
      split at h <;> split at h <;> (injection h with h; exact .inl ⟨_, _, h.symm⟩)
    | rst l =>
      simp only [handleEvent] at h
      injection h with h
      cases l with
      | low => exact .inr (.inr (.inl ⟨.inl (by rw [hi]; rfl), rest, h.symm⟩))
      | high => exact .inr (.inl ⟨rest, h.symm⟩)
    | powerCycle =>
      simp only [handleEvent] at h
      injection h with h
      exact .inr (.inr (.inl ⟨.inr (by rw [hi]; rfl), rest, h.symm⟩))
    | absent c => simp [handleEvent] at h

/-- Engine ticks always answer a next state. -/
theorem runTicks_next (ls : List Level) (s : State) : ∃ t, runTicks ls s = .next t := by
  induction ls generalizing s with
  | nil => exact ⟨s, rfl⟩
  | cons l ls ih =>
    obtain ⟨t, ht⟩ := engineTick_next { s with eng := { s.eng with swI := l } }
    obtain ⟨u, hu⟩ := ih t
    exact ⟨u, by simp only [runTicks, ht, hu]⟩

/-- Ticks compose. -/
theorem runTicks_append {ls : List Level} {s t : State} (h : runTicks ls s = .next t) (ls' : List Level) :
    runTicks (ls ++ ls') s = runTicks ls' t := by
  induction ls generalizing s with
  | nil =>
    injection h with h
    rw [← h, List.nil_append]
  | cons l ls ih =>
    obtain ⟨u, hu⟩ := engineTick_next { s with eng := { s.eng with swI := l } }
    simp only [runTicks, hu] at h
    simp only [List.cons_append, runTicks, hu]
    exact ih h

end Sys2Proof.Machine
end

