-- ==== Sys2Proof/Tests/Slice0.lean ====
section
/-! SUPPORT. The model's own tests. Every expected value is one of spec/95_test_vectors.md (named at the test), of an
example of the rule named, or written out from the spec's encoding. -/

namespace Sys2Proof.Tests

open Sys2Proof.Machine

/-- The common test parameters of 95_test_vectors.md, at a window base of 0x10000. -/
def testParams : Params :=
  { basePage := 16, clkPerTickPred := 0, lastCompTick := 0, expectedId := 0x55, tempCmd := 0x2E
    pressCmdBase := 0x34, swMinInterval := 0 }

/-- The reset state of an instance with those parameters. -/
def s0 : State := State.resetOf testParams

/-- The outcome is a next state with this property. -/
def nextIs (o : Host.Outcome State Fault Refusal) (f : State → Bool) : Bool :=
  match o with
  | .next t => f t
  | .fault _ => false
  | .refused _ => false

/-- The command word `w` in flight in COMPUTE, at its commit tick, with a snapshot. -/
def computing (w : Word) (sn : Snap) : State :=
  { s0 with
    status := { s0.status with busy := true, lastop := w.extractLsb' 0 8 }
    eng := { s0.eng with seq := .compute, cmd := w, snap := sn } }

/-- A SW_READ in flight in a phase. -/
def reading (q : Seq) (cnt : BitVec 32) (l : Level) : State :=
  { s0 with
    status := { s0.status with busy := true, lastop := 0x10 }
    eng := { s0.eng with
      seq := q, cnt := cnt, cmd := 0x00000010, swI := l
      snap := { snapshot s0 with startMs := 18 } } }

/-- The reference calibration bytes of 95_test_vectors.md. -/
def refBytes : Vector Byte 22 :=
  #v[0x01, 0x98, 0xFF, 0xB8, 0xC7, 0xD1, 0x7F, 0xE5, 0x7F, 0xF5, 0x5A, 0x71, 0x18, 0x2E, 0x00, 0x04, 0x80, 0x00,
    0xDD, 0xF9, 0x0B, 0x34]

/-- A calibrated snapshot at the reference coefficients: RAWT, RAWP and MODE given. -/
def refSnap (rawt : BitVec 16) (rawp : BitVec 24) (mode : Byte) : Snap :=
  { snapshot s0 with coef := calDecode refBytes, calValid := true, rawt := rawt, rawp := rawp, mode := mode }

/-! ## Encoding: words written out from 30_encoding.md R90, R91, bits [31:8] then [7:0] -/

theorem test_decode_nop : decode 0b000000000000000000000000_00000000 = .ok .nop := by decide
theorem test_decode_calLoad : decode 0b000000000000000000000000_00000001 = .ok .calLoad := by decide
theorem test_decode_tempComp : decode 0b000000000000000000000000_00000010 = .ok .tempComp := by decide
theorem test_decode_presComp : decode 0b000000000000000000000000_00000011 = .ok .presComp := by decide
theorem test_decode_altComp : decode 0b000000000000000000000000_00000100 = .ok .altComp := by decide
theorem test_decode_swRead : decode 0b000000000000000000000000_00010000 = .ok .swRead := by decide
theorem test_decode_swCheck : decode 0b000000000000000000000000_00010001 = .ok .swCheck := by decide

/-- V-R3: PRES_COMP's OPC with bit 8 set is illegal. -/
theorem test_decode_rsv : decode 0x00000103 = .error .rsvNonzero := by decide
/-- V-R2: OPC 0x05. -/
theorem test_decode_opc : decode 0x00000005 = .error .undefinedOpc := by decide
/-- The first gap after the single-wire codes. -/
theorem test_decode_opc_12 : decode 0x00000012 = .error .undefinedOpc := by decide

/-- An ill-formed word for the first check of R92. -/
theorem test_illformed_rsv : rsvClear 0x80000003 = false ∧ legalWord 0x80000003 = false := by decide
/-- An ill-formed word for the second check of R92. -/
theorem test_illformed_opc : opcDefined 0x0000000F = false ∧ legalWord 0x0000000F = false := by decide

/-- No two commands share a word. -/
theorem test_words_differ :
    ([.nop, .calLoad, .tempComp, .presComp, .altComp, .swRead, .swCheck].map encode).Pairwise (· ≠ ·) := by decide

/-- A table word runs as the very next step: SW_READ's word is accepted (V-S1's first instant). -/
theorem test_withFetchWord :
    nextIs (step (State.reset.withFetchWord 32 0x10)) (fun t => t.status.busy && t.eng.seq == .prep) = true := by
  decide

/-! ## Binary64 (R12, R123, R164) -/

/-- R140: `e = f64_div(1.0, 5.255)` = 0x3FC85B95CCD9456C. -/
theorem test_alt_exponent : f64Div f64One f64AltDivisor = 0x3FC85B95CCD9456C := by decide +kernel
/-- V-U3: 23.5 °C is 74.3 °F, fused. -/
theorem test_fahrenheit_fused : convertTemp .fahrenheit 235 = 0x4052933333333333 := by decide +kernel
/-- R164: two roundings would give one ulp more. -/
theorem test_fahrenheit_two_roundings :
    f64Add (f64Mul (tenths 235) f64OnePointEight) f64ThirtyTwo = 0x4052933333333334 := by decide +kernel
/-- V-U4. -/
theorem test_kelvin : convertTemp .kelvin 235 = 0x40728A6666666666 := by decide +kernel
/-- V-U6. -/
theorem test_fahrenheit_max : convertTemp .fahrenheit 65535 = 0x40C71A2666666667 := by decide +kernel
/-- V-U8: bit 15 is no sign. -/
theorem test_unsigned_raw : convertTemp .celsius 0x8000 = 0x40A999999999999A := by decide +kernel
/-- V-A1's last operations, with its r = 0.9319524691006107. -/
theorem test_altitude_reference :
    altitude (fun _ _ => 0x3FEDD28DFC06D598) 69965 f64SeaLevelDefault = 0x40A7911816408894 := by decide +kernel
/-- V-A3: a zero reference makes the power function's operand +inf. -/
theorem test_altitude_zero_ref : altitude (fun x _ => x) 69965 (f64Zero false) = 0xFFF0000000000000 := by
  decide +kernel
/-- R123 with V-C1's pressure: a positive number over -infinity, and a negative one over +infinity, is -0.0 (log 22). -/
theorem test_altitude_infinite_ref :
    f64Div (f64OfInt 69965) 0xFFF0000000000000 = 0x8000000000000000 ∧
    f64Div (f64OfInt (-69965)) 0x7FF0000000000000 = 0x8000000000000000 := by
  decide +kernel
/-- V-A4: a NaN becomes the canonical NaN. -/
theorem test_altitude_nan : altitude (fun _ _ => 0x7FF8000000000123) 69965 f64One = 0x7FF8000000000000 := by
  decide +kernel

/-! ## Commands, one step each -/

/-- V-R1: STATUS = 0x00000002 after a NOP. -/
theorem test_nop_commit :
    nextIs (exec .nop (computing 0x00000000 Snap.reset)) (fun t => readReg .status t == 0x00000002) = true := by decide
/-- 43_control.md R180: NOP commits at the first tick whatever P_COMP_LATENCY is. -/
theorem test_nop_any_latency :
    nextIs (exec .nop { computing 0x00000000 Snap.reset with par := { testParams with lastCompTick := 7 } })
      (fun t => t.eng.seq == .idle) = true := by decide

/-- V-L1 and L1-5. -/
theorem test_calLoad_ref :
    nextIs (exec .calLoad (computing 0x00000001 { snapshot s0 with calid := 0x55, calbyte := refBytes }))
      (fun t => readReg .status t == 0x0001000A && readReg .coefAc2 t == 0xFFFFFFB8 && readReg .coefAc4 t == 0x00007FE5 &&
        readReg .coefMb t == 0xFFFF8000 && readReg .coefMd t == 0x00000B34) = true := by decide
/-- V-L2. -/
theorem test_calLoad_mismatch :
    nextIs (exec .calLoad (computing 0x00000001 { snapshot s0 with calid := 0x77, calbyte := refBytes }))
      (fun t => readReg .status t == 0x00010202 && t.coef == Coefs.zero) = true := by decide

/-- V-C7: the floor of TEMP_DC, -298 and not -297, and TEMP = -29.8. -/
theorem test_tempComp_floor :
    nextIs (exec .tempComp (computing 0x00000002 (refSnap 15000 0 0)))
      (fun t => t.temp.b5.toInt == -4773 && t.temp.tempDc.toInt == -298 && t.temp.temp == 0xC03DCCCCCCCCCCCD) = true := by
  decide +kernel
/-- V-C8: a product that wraps. -/
theorem test_tempComp_wrap :
    nextIs (exec .tempComp (computing 0x00000002
        { refSnap 65535 0 0 with coef := { calDecode refBytes with ac5 := 0xFFFF, ac6 := 0 } }))
      (fun t => t.temp.b5.toInt == -6229 && t.temp.tempDc.toInt == -389) = true := by decide +kernel

/-- V-C1. -/
theorem test_presComp_ref :
    nextIs (exec .presComp (computing 0x00000003 (refSnap 27898 0x5D2300 0)))
      (fun t => t.temp.b5 == 2400 && t.temp.temp == 0x402E000000000000 && t.pres.up == 0x00005D23 &&
        t.pres.pressPa == 0x0001114D && t.pres.press == 0x40F114D000000000) = true := by decide +kernel
/-- V-C6: the second arm of the b7 branch, and a wrap in the correction. -/
theorem test_presComp_arm_b :
    nextIs (exec .presComp (computing 0x00000003 (refSnap 27898 0 0)))
      (fun t => t.pres.pressPa == 0x0003DB29 && t.status.errcode == .ok) = true := by decide +kernel

/-- V-C12 for ALT_COMP: NotCalibrated is checked before InvalidMode, and ALT is not written. -/
theorem test_altComp_not_calibrated :
    nextIs (exec .altComp (computing 0x00000004 { refSnap 27898 0 4 with calValid := false }))
      (fun t => t.status.errcode == .notCalibrated && t.alt == 0 && t.temp.b5 == 0) = true := by decide
/-- V-C11 for ALT_COMP. -/
theorem test_altComp_invalid_mode :
    nextIs (exec .altComp (computing 0x00000004 (refSnap 27898 0 4)))
      (fun t => t.status.errcode == .invalidMode && t.pres.pressPa == 0) = true := by decide

/-- V-S20's frame at SW_FINISH: 0x82 makes the sum 0xBD; the frame and the sum are written, the results are not. -/
theorem test_swRead_checksum :
    nextIs (exec .swRead
        (let s := reading .swFinish 0 .high; { s with eng := { s.eng with shreg := 0x828C00AF3D, bitidx := 40 } }))
      (fun t => readReg .status t == 0x00100402 && t.frame.frame0 == 0x828C00AF && t.swsum == 0xBD &&
        readReg .seq t == 0x00002890 && t.sw == s0.sw) = true := by decide
/-- V-S14: with WAIT_LIMIT_US = 1 the first High sample of ACK_LOW is a timeout. -/
theorem test_swRead_timeout :
    nextIs (exec .swRead
        (let s := reading .ackLow 0 .high
         { s with eng := { s.eng with snap := { s.eng.snap with waitLimit := 1 } } }))
      (fun t => readReg .status t == 0x00100602 && readReg .seq t == 0x00000040) = true := by decide

/-- Program P4's first frame, in Fahrenheit: SWTEMP = 74.3. -/
theorem test_swCheck_pass :
    nextIs (exec .swCheck (computing 0x00000011
        { snapshot s0 with frame0 := 0x01F400EB, frame1 := 0xE0, unit := .fahrenheit }))
      (fun t => readReg .status t == 0x00110002 && t.sw.hum == 0x4049000000000000 && t.sw.swtemp == 0x4052933333333333 &&
        readReg .swunit t == 1) = true := by decide +kernel
/-- V-K3: only SWSUM is written. -/
theorem test_swCheck_fail :
    nextIs (exec .swCheck (computing 0x00000011 { snapshot s0 with frame0 := 0x028C00AF, frame1 := 0x5D }))
      (fun t => t.status.errcode == .checksum && t.swsum == 0x3D && t.sw == s0.sw) = true := by decide

/-! ## The bit sampler (R153): the sample is at cnt = 39, te + 40 -/

theorem test_bit_sampler :
    (bitDelayTick (reading .bitDelay 39 .high)).eng.shreg = 1 ∧
      (bitDelayTick (reading .bitDelay 39 .high)).eng.seq = .bitRestore ∧
      (bitDelayTick (reading .bitDelay 38 .high)).eng.shreg = 0 ∧
      (bitDelayTick (reading .bitDelay 38 .high)).eng.cnt = 39 := by decide

/-! ## The window (section 2.7 of 95_test_vectors.md) -/

/-- The next event is this one. -/
def withEvent (e : Event) (s : State) : State := { s with inputs := [e] }

/-- V-R9 and V-R10: UNIT 3 is not stored. -/
theorem test_warl_unit :
    readReg .ctrl (writeReg .ctrl 0x7 s0) = 0x00000001 ∧
      readReg .ctrl (writeReg .ctrl 0x6 (writeReg .ctrl 0x4 s0)) = 0x00000004 := by decide
/-- V-R11 and V-R12. -/
theorem test_warl_timing :
    readReg .timing (writeReg .timing 0 s0) = 0x00001412 ∧
      readReg .timing (writeReg .timing 0xFFFFFFFF s0) = 0xFFFF28FF := by decide
/-- V-R13 and V-R14. -/
theorem test_modeinfo :
    readReg .modeinfo s0 = 0x05740801 ∧ readReg .mode (writeReg .mode 0x1FF s0) = 0x000000FF ∧
      readReg .modeinfo (writeReg .mode 0x1FF s0) = 0x05000000 := by decide
/-- V-R15, MODE = 3. -/
theorem test_modeinfo_3 : readReg .modeinfo (writeReg .mode 3 s0) = 0x05F41A01 := by decide
/-- V-R16. -/
theorem test_identification :
    readReg .devinfo s0 = 0x00342E55 ∧ readOffset 0x000 s0 = 0x53574350 ∧ readOffset 0x034 s0 = 0x40F8BCD0 := by decide
/-- V-R18: a 16-bit read at 0x014, and a 32-bit read at 0x016; a write returns no value. -/
theorem test_bus_error :
    nextIs (step (withEvent (.hostRead 0x014 2) s0)) (fun t => t == { s0 with resp := .readError 0 }) = true ∧
      nextIs (step (withEvent (.hostRead 0x016 4) s0)) (fun t => t == { s0 with resp := .readError 0 }) = true ∧
      nextIs (step (withEvent (.hostWrite 0x016 4 1) s0)) (fun t => t == { s0 with resp := .writeError }) = true := by
  decide
/-- 20_memory.md R70: the window ends at 0xFFF; 43_control.md R181: an absent class. -/
theorem test_stops :
    (match step (withEvent (.hostRead 0x1000 4) s0) with | .fault r => r == .outsideWindow 0x1000 | _ => false) = true ∧
      (match step (withEvent (.absent .vector) s0) with | .refused r => r == .absentClass .vector | _ => false) = true :=
  by decide
/-- V-R20. -/
theorem test_reserved_bits :
    nextIs (step (withEvent (.hostWrite 0x028 4 0xFFFF6CFA) s0)) (fun t => readOffset 0x028 t == 0x00006CFA) = true := by
  decide
/-- V-R5: a CMD write while BUSY is dropped. -/
theorem test_drop :
    nextIs (step (withEvent (.hostWrite 0x010 4 0) (reading .prep 0 .high)))
      (fun t => t.status.ovr && t.status.lastop == 0x10 && t.eng.seq == .prep) = true := by decide
/-- V-R2: an illegal word in flight commits at tick 0. -/
theorem test_illegal_commit :
    nextIs (step (withEvent .clk (computing 0x00000005 Snap.reset))) (fun t => readReg .status t == 0x00050802) = true := by
  decide
/-- V-R7: `irq` follows CTRL.IE and DONE. -/
theorem test_irq :
    irq (writeReg .ctrl 1 { s0 with status := { s0.status with done := true } }) = true ∧
      irq (writeReg .status 2 (writeReg .ctrl 1 { s0 with status := { s0.status with done := true } })) = false := by
  decide
/-- R97's example of a listing line. -/
theorem test_listing : listing (wrEvent .cmd (encode .presComp)) = "W 010: 00000003" := by decide

/-! ## Witnesses: states and operands that meet the hypotheses of each statement of Certificates/Slice0/Obligations.lean,
one for each clause, at a boundary of the clause's range where it has one -/

/-- A step from `s` answers a next state and is no reset. -/
def stepsOn (s : State) : Prop := (∃ t, step s = .next t) ∧ ¬ resets s

/-- `s` with `rst_n` low. -/
def held (s : State) : State := { s with rstN := false }

/-- `s` at a clock cycle that ends a tick, with a line sample lined up. -/
def ticking (l : Level) (s : State) : State := { s with inputs := [.clk], lineIn := [l] }

/-- `s` in a wait bounded by `w`. -/
def bounded (w : BitVec 16) (s : State) : State :=
  { s with eng := { s.eng with snap := { s.eng.snap with waitLimit := w } } }

/-- The snapshot of V-C1. -/
def sn1 : Snap := refSnap 27898 0x5D2300 0

/-- A snapshot whose temperature divisor is 0: MD is the negative of x1. -/
def snD0 : Snap := { sn1 with coef := { sn1.coef with md := 0xED79 } }

/-- A snapshot whose b4 is 0: AC4 is 0. -/
def snB0 : Snap := { sn1 with coef := { sn1.coef with ac4 := 0 } }

theorem commitTick_computing (w : Word) (sn : Snap) : commitTick (computing w sn) := ⟨rfl, rfl⟩

theorem readingIn_reading (q : Seq) (c : BitVec 32) (l : Level) : readingIn q (reading q c l) := ⟨rfl, rfl, rfl⟩

theorem chain_sn1 : temperatureChain sn1 4743 7611 2400 150 := by unfold temperatureChain; decide
theorem chain_snB0 : temperatureChain snB0 4743 7611 2400 150 := by unfold temperatureChain; decide
theorem chain_snD0 : temperatureChain snD0 4743 0 4743 296 := by unfold temperatureChain; decide
theorem b4_sn1 : b4Chain sn1 2400 33457 := ⟨-1600, 625, 717, by decide, by decide, by decide, by decide⟩
theorem b4_snB0 : b4Chain snB0 2400 0 := ⟨-1600, 625, 717, by decide, by decide, by decide, by decide⟩
theorem press_sn1 : pressureChain sn1 0 2400 33457 23843 69965 :=
  ⟨-1600, 625, 57, 422, 1171050000, 70003, 70003, 74529, by decide, by decide, by decide, by decide, by decide, by decide,
    by decide, by decide, by decide, by decide⟩

theorem witness_DecodeInvertsEncode : decode 0x00000011 = .ok .swCheck := by decide

theorem witness_ResetPinAbandonsTheCommand :
    ((withEvent (.rst .low) (reading .bitDelay 39 .high)).inputs = .rst .low :: [] ∧
      (withEvent .powerCycle (reading .bitDelay 39 .high)).inputs = .powerCycle :: []) ∧
    (withEvent (.rst .high) (held s0)).inputs = .rst .high :: [] ∧
    ((held s0).rstN = false ∧ 4095 < 4096 ∧
      (withEvent (.hostWrite 4095 4 1) (held s0)).inputs = .hostWrite 4095 4 1 :: []) ∧
    ((withEvent (.hostRead 0 4) (held s0)).rstN = false ∧ 0 < 4096 ∧
      (withEvent (.hostRead 0 4) (held s0)).inputs = .hostRead 0 4 :: []) ∧
    ((withEvent .wait (held s0)).rstN = false ∧ (withEvent .wait (held s0)).inputs = .wait :: []) ∧
    ((withEvent .clk (held s0)).rstN = false ∧ clockCycleNext [] (withEvent .clk (held s0)) ∧
      clockCycleNext [] { held s0 with inputs := [] }) := by
  unfold clockCycleNext
  decide

/-- Each clause; the clock cycle once lined up and once with nothing lined up, with a listed sample and with a free one,
at P_CLK_PER_TICK = 1 and 2. -/
theorem witness_StepRunsTheDecodedCommand :
    (let s := withEvent (.hostWrite 0x010 4 0x00000010) s0
     s.rstN = true ∧ s.status.busy = false ∧ decode 0x00000010 = .ok .swRead ∧
       s.inputs = .hostWrite 0x010 4 0x00000010 :: []) ∧
    (let s := ticking .low (reading .ackLow 0 .high)
     s.rstN = true ∧ s.status.busy = true ∧ decode s.eng.cmd = .ok .swRead ∧ s.div = s.par.clkPerTickPred ∧
       clockCycleNext [] s ∧ clockCycleNext [] { s with inputs := [] } ∧ (∃ a, sampledForTick [] s a)) ∧
    (let s := computing 0x00000003 sn1
     s.rstN = true ∧ s.status.busy = true ∧ decode s.eng.cmd = .ok .presComp ∧ s.div = s.par.clkPerTickPred ∧
       clockCycleNext [] s ∧ clockCycleNext [.wait] { s with inputs := [.clk, .wait] } ∧
       (∃ a, sampledForTick [] s a)) ∧
    (let s := computing 0x00000005 sn1
     s.rstN = true ∧ s.status.busy = true ∧ legalWord s.eng.cmd = false ∧ s.div = s.par.clkPerTickPred ∧
       clockCycleNext [] s ∧ (∃ a, sampledForTick [] s a)) ∧
    (let s := ticking .low s0
     s.rstN = true ∧ s.status.busy = false ∧ s.div = s.par.clkPerTickPred ∧ clockCycleNext [] s ∧
       (∃ a, sampledForTick [] s a)) ∧
    (let s := withEvent .clk { s0 with par := { testParams with clkPerTickPred := 1 } }
     s.rstN = true ∧ s.div ≠ s.par.clkPerTickPred ∧ clockCycleNext [] s ∧ clockCycleNext [] { s with inputs := [] }) := by
  unfold clockCycleNext
  exact ⟨by decide, ⟨rfl, rfl, rfl, rfl, by decide, by decide, _, .inl ⟨_, _, rfl, rfl⟩⟩,
    ⟨rfl, rfl, rfl, rfl, by decide, by decide, _, .inr ⟨rfl, rfl⟩⟩,
    ⟨rfl, rfl, by decide, rfl, by decide, _, .inr ⟨rfl, rfl⟩⟩,
    ⟨rfl, rfl, rfl, by decide, _, .inl ⟨_, _, rfl, rfl⟩⟩, by decide⟩

theorem witness_AcceptanceStartsTheCommand :
    (∀ w : Word, (withEvent (.hostWrite 0x010 4 w) s0).rstN = true ∧
      (withEvent (.hostWrite 0x010 4 w) s0).status.busy = false ∧
      (withEvent (.hostWrite 0x010 4 w) s0).inputs = .hostWrite 0x010 4 w :: []) ∧
    (∃ t, step (withEvent (.hostWrite 0x010 4 0x00000004) s0) = .next t ∧ t.status.busy = true) :=
  ⟨fun _ => ⟨rfl, rfl, rfl⟩, _, rfl, rfl⟩

theorem witness_ExecAcceptsWhenIdle : s0.status.busy = false := by decide

theorem witness_BusyDropsTheWord :
    let s := withEvent (.hostWrite 0x010 4 0x00000001) (reading .prep 0 .high)
    s.rstN = true ∧ s.status.busy = true ∧ s.inputs = .hostWrite 0x010 4 0x00000001 :: [] := by decide

theorem witness_IllegalWordCommitsAtTickZero :
    let s := withEvent (.hostWrite 0x010 4 0x00000005) s0
    s.rstN = true ∧ s.status.busy = false ∧ legalWord 0x00000005 = false ∧
      s.inputs = .hostWrite 0x010 4 0x00000005 :: [] := by decide

theorem witness_NopCommitsWithSuccess : (computing 0x00000000 Snap.reset).status.busy = true := by decide

theorem witness_CalLoadDecodesTheBlock :
    let s := computing 0x00000001 { snapshot s0 with calid := 0x55, calbyte := refBytes }
    commitTick s ∧ s.eng.snap.calid = s.par.expectedId := ⟨commitTick_computing _ _, rfl⟩

theorem witness_CalLoadMismatchWritesNothing :
    let s := computing 0x00000001 { snapshot s0 with calid := 0x54 }
    commitTick s ∧ s.eng.snap.calid ≠ s.par.expectedId := ⟨commitTick_computing _ _, by decide⟩

theorem witness_TempCompComputesTheTemperature :
    let s := computing 0x00000002 sn1
    commitTick s ∧ s.eng.snap.calValid = true ∧ temperatureChain s.eng.snap 4743 7611 2400 150 ∧ (7611 : Int) ≠ 0 :=
  ⟨commitTick_computing _ _, rfl, chain_sn1, by decide⟩

theorem witness_TempCompErrors :
    (commitTick (computing 0x00000002 Snap.reset) ∧ (computing 0x00000002 Snap.reset).eng.snap.calValid = false) ∧
    (let s := computing 0x00000002 snD0
     commitTick s ∧ s.eng.snap.calValid = true ∧ temperatureChain s.eng.snap 4743 0 4743 296) :=
  ⟨⟨commitTick_computing _ _, rfl⟩, commitTick_computing _ _, rfl, chain_snD0⟩

theorem witness_PresCompComputesThePressure :
    let s := computing 0x00000003 sn1
    commitTick s ∧ s.eng.snap.calValid = true ∧ s.eng.snap.mode.toNat ≤ 3 ∧
      temperatureChain s.eng.snap 4743 7611 2400 150 ∧ (7611 : Int) ≠ 0 ∧ b4Chain s.eng.snap 2400 33457 ∧
      (33457 : Int) ≠ 0 ∧ pressureChain s.eng.snap s.eng.snap.mode.toNat 2400 33457 23843 69965 :=
  ⟨commitTick_computing _ _, rfl, by decide, chain_sn1, by decide, b4_sn1, by decide, press_sn1⟩

theorem witness_AltCompComputesTheAltitude :
    let s := computing 0x00000004 sn1
    commitTick s ∧ s.eng.snap.calValid = true ∧ s.eng.snap.mode.toNat ≤ 3 ∧
      temperatureChain s.eng.snap 4743 7611 2400 150 ∧ (7611 : Int) ≠ 0 ∧ b4Chain s.eng.snap 2400 33457 ∧
      (33457 : Int) ≠ 0 ∧ pressureChain s.eng.snap s.eng.snap.mode.toNat 2400 33457 23843 69965 :=
  ⟨commitTick_computing _ _, rfl, by decide, chain_sn1, by decide, b4_sn1, by decide, press_sn1⟩

theorem witness_PressureErrorsInOrder :
    (commitTick (computing 0x00000003 Snap.reset) ∧ (computing 0x00000003 Snap.reset).eng.snap.calValid = false) ∧
    (let s := computing 0x00000004 { sn1 with mode := 4 }
     commitTick s ∧ s.eng.snap.calValid = true ∧ 3 < s.eng.snap.mode.toNat) ∧
    (let s := computing 0x00000003 { snD0 with mode := 3 }
     commitTick s ∧ s.eng.snap.calValid = true ∧ s.eng.snap.mode.toNat ≤ 3 ∧
       temperatureChain s.eng.snap 4743 0 4743 296) ∧
    (let s := computing 0x00000004 snB0
     commitTick s ∧ s.eng.snap.calValid = true ∧ s.eng.snap.mode.toNat ≤ 3 ∧
       temperatureChain s.eng.snap 4743 7611 2400 150 ∧ (7611 : Int) ≠ 0 ∧ b4Chain s.eng.snap 2400 0) :=
  ⟨⟨commitTick_computing _ _, rfl⟩, ⟨commitTick_computing _ _, rfl, by decide⟩,
    ⟨commitTick_computing _ _, rfl, by decide, chain_snD0⟩,
    commitTick_computing _ _, rfl, by decide, chain_snB0, by decide, b4_snB0⟩

/-- V-K1's frame. -/
theorem witness_SwCheckConvertsAPassingFrame :
    let s := computing 0x00000011 { snapshot s0 with frame0 := 0x028C00AF, frame1 := 0x3D }
    commitTick s ∧ s.eng.snap.frame0 = (0x02#8 ++ 0x8C#8 ++ 0x00#8 ++ 0xAF#8) ∧ s.eng.snap.frame1 = 0x3D#8 ∧
      ((0x02#8).toNat + (0x8C#8).toNat + (0x00#8).toNat + (0xAF#8).toNat) % 256 = (0x3D#8).toNat :=
  ⟨commitTick_computing _ _, by decide, by decide, by decide⟩

theorem witness_SwCheckMismatchWritesOnlyTheSum :
    let s := computing 0x00000011 { snapshot s0 with frame0 := 0x028C00AF, frame1 := 0x3C }
    commitTick s ∧ s.eng.snap.frame0 = (0x02#8 ++ 0x8C#8 ++ 0x00#8 ++ 0xAF#8) ∧ s.eng.snap.frame1 = 0x3C#8 ∧
      (0x3D#8).toNat = ((0x02#8).toNat + (0x8C#8).toNat + (0x00#8).toNat + (0xAF#8).toNat) % 256 ∧ 0x3D#8 ≠ 0x3C#8 :=
  ⟨commitTick_computing _ _, by decide, by decide, by decide, by decide⟩

/-- The reading of a received frame. -/
def received (shreg : BitVec 40) : State :=
  let s := reading .swFinish 0 .high
  { s with eng := { s.eng with shreg := shreg, bitidx := 40 } }

theorem witness_SwReadCommitsAPassingFrame :
    readingIn .swFinish (received 0x028C00AF3D) ∧
      (received 0x028C00AF3D).eng.shreg = (0x02#8 ++ 0x8C#8 ++ 0x00#8 ++ 0xAF#8 ++ 0x3D#8) ∧
      ((0x02#8).toNat + (0x8C#8).toNat + (0x00#8).toNat + (0xAF#8).toNat) % 256 = (0x3D#8).toNat :=
  ⟨⟨rfl, rfl, rfl⟩, by decide, by decide⟩

theorem witness_SwReadKeepsAFailingFrame :
    readingIn .swFinish (received 0x828C00AF3D) ∧
      (received 0x828C00AF3D).eng.shreg = (0x82#8 ++ 0x8C#8 ++ 0x00#8 ++ 0xAF#8 ++ 0x3D#8) ∧
      (0xBD#8).toNat = ((0x82#8).toNat + (0x8C#8).toNat + (0x00#8).toNat + (0xAF#8).toNat) % 256 ∧ 0xBD#8 ≠ 0x3D#8 :=
  ⟨⟨rfl, rfl, rfl⟩, by decide, by decide, by decide⟩

/-- With P_COMP_LATENCY = 2, one tick before the commit tick. -/
theorem witness_ComputeOnlyCountsBeforeItsCommit :
    let s := { computing 0x00000003 sn1 with par := { testParams with lastCompTick := 1 } }
    Instr.presComp ≠ .nop ∧ Instr.presComp ≠ .swRead ∧ s.status.busy = true ∧
      s.eng.cnt.toNat + 1 ≠ s.par.lastCompTick.toNat + 1 := by decide

theorem witness_StartSignalTiming :
    readingIn .prep (reading .prep 0 .high) ∧
    (readingIn .startLow (reading .startLow 17999 .high) ∧ readingIn .release (reading .release 19 .high)) ∧
    (let s := reading .startLow 0 .high
     readingIn .startLow s ∧ s.eng.cnt = 0 ∧
       (List.replicate 17999 Level.high).length < s.eng.snap.startMs.toNat * 1000) ∧
    (let s := reading .startLow 0 .high
     readingIn .startLow s ∧ s.eng.cnt = 0 ∧
       (List.replicate 17999 Level.low).length + 1 = s.eng.snap.startMs.toNat * 1000) ∧
    (let s := reading .release 0 .high
     readingIn .release s ∧ s.eng.cnt = 0 ∧ (List.replicate 19 Level.high).length < s.eng.snap.releaseUs.toNat) ∧
    (let s := reading .release 0 .low
     readingIn .release s ∧ s.eng.cnt = 0 ∧ (List.replicate 19 Level.low).length + 1 = s.eng.snap.releaseUs.toNat) := by
  refine ⟨readingIn_reading _ _ _, ⟨readingIn_reading _ _ _, readingIn_reading _ _ _⟩,
    ⟨readingIn_reading _ _ _, rfl, ?_⟩, ⟨readingIn_reading _ _ _, rfl, ?_⟩,
    ⟨readingIn_reading _ _ _, rfl, ?_⟩, readingIn_reading _ _ _, rfl, ?_⟩ <;> rw [List.length_replicate] <;> decide

/-- Both waits, at each outcome: the level seen, the last tick of a bound of 1, the tick before the last of a bound of 2,
and an unbounded wait. -/
theorem witness_AcknowledgeWaits :
    (readingIn .ackLow (reading .ackLow 0 .low) ∧ (reading .ackLow 0 .low).eng.swI = .low) ∧
    (readingIn .ackHigh (reading .ackHigh 0 .high) ∧ (reading .ackHigh 0 .high).eng.swI = .high) ∧
    (let s := bounded 1 (reading .ackLow 0 .high)
     readingIn .ackLow s ∧ s.eng.swI ≠ .low ∧ s.eng.snap.waitLimit ≠ 0 ∧
       s.eng.cnt.toNat + 1 = s.eng.snap.waitLimit.toNat) ∧
    (let s := bounded 0xFFFF (reading .ackHigh 0xFFFE .low)
     readingIn .ackHigh s ∧ s.eng.swI ≠ .high ∧ s.eng.snap.waitLimit ≠ 0 ∧
       s.eng.cnt.toNat + 1 = s.eng.snap.waitLimit.toNat) ∧
    (let s := bounded 2 (reading .ackLow 0 .high)
     readingIn .ackLow s ∧ s.eng.swI ≠ .low ∧ s.eng.cnt.toNat + 1 ≠ s.eng.snap.waitLimit.toNat) ∧
    (let s := bounded 0 (reading .ackHigh 0 .low)
     readingIn .ackHigh s ∧ s.eng.swI ≠ .high ∧ s.eng.snap.waitLimit = 0) := by
  refine ⟨⟨⟨rfl, rfl, rfl⟩, rfl⟩, ⟨⟨rfl, rfl, rfl⟩, rfl⟩, ⟨⟨rfl, rfl, rfl⟩, ?_⟩, ⟨⟨rfl, rfl, rfl⟩, ?_⟩,
    ⟨⟨rfl, rfl, rfl⟩, ?_⟩, ⟨rfl, rfl, rfl⟩, ?_⟩ <;> decide

theorem witness_BitSampledFortyTicksAfterTheEdge :
    (readingIn .bitEdge (reading .bitEdge 0 .low) ∧ (reading .bitEdge 0 .low).eng.swI = .low) ∧
    (let s := bounded 1 (reading .bitEdge 0 .high)
     readingIn .bitEdge s ∧ s.eng.swI = .high ∧ s.eng.snap.waitLimit ≠ 0 ∧
       s.eng.cnt.toNat + 1 = s.eng.snap.waitLimit.toNat) ∧
    (let s := bounded 0 (reading .bitEdge 0 .high)
     readingIn .bitEdge s ∧ s.eng.swI = .high ∧ s.eng.snap.waitLimit = 0) ∧
    (readingIn .bitDelay (reading .bitDelay 38 .high) ∧ (reading .bitDelay 38 .high).eng.cnt ≠ 39) ∧
    (readingIn .bitDelay (reading .bitDelay 0 .high) ∧ (reading .bitDelay 0 .high).eng.cnt = 0 ∧
      (List.replicate 39 Level.low).length = 39) := by
  refine ⟨⟨⟨rfl, rfl, rfl⟩, rfl⟩, ⟨⟨rfl, rfl, rfl⟩, ?_⟩, ⟨⟨rfl, rfl, rfl⟩, ?_⟩, ⟨⟨rfl, rfl, rfl⟩, ?_⟩, ⟨rfl, rfl, rfl⟩,
    ?_⟩ <;> decide

theorem witness_BitRestoreCountsTheBit :
    (let s := reading .bitRestore 0 .high
     let s := { s with eng := { s.eng with bitidx := 39 } }
     readingIn .bitRestore s ∧ s.eng.swI = .high) ∧
    (let s := bounded 1 (reading .bitRestore 0 .low)
     readingIn .bitRestore s ∧ s.eng.swI = .low ∧ s.eng.snap.waitLimit ≠ 0 ∧
       s.eng.cnt.toNat + 1 = s.eng.snap.waitLimit.toNat) ∧
    (let s := bounded 0 (reading .bitRestore 0 .low)
     readingIn .bitRestore s ∧ s.eng.swI = .low ∧ s.eng.snap.waitLimit = 0) := by
  refine ⟨⟨⟨rfl, rfl, rfl⟩, rfl⟩, ⟨⟨rfl, rfl, rfl⟩, ?_⟩, ⟨rfl, rfl, rfl⟩, ?_⟩ <;> decide

theorem witness_LinePortFollowsSeq :
    (reading .prep 0 .high).eng.seq = .prep ∧ (reading .startLow 0 .high).eng.seq = .startLow ∧
    (reading .release 0 .high).eng.seq = .release ∧
    ((reading .ackLow 0 .high).eng.seq ≠ .prep ∧ (reading .ackLow 0 .high).eng.seq ≠ .startLow ∧
      (reading .ackLow 0 .high).eng.seq ≠ .release) := by decide

theorem witness_CommandFrames :
    (∃ t, exec .presComp (computing 0x00000003 sn1) = .next t) ∧ (∃ t, exec .swRead s0 = .next t) :=
  ⟨⟨_, rfl⟩, _, rfl⟩

/-- The commit of a CAL_LOAD sets CAL_VALID, and a second one keeps it. -/
theorem witness_OnlyCalLoadWritesTheCalibrationStore :
    let s := ticking .high (computing 0x00000001 { snapshot s0 with calid := 0x55, calbyte := refBytes })
    stepsOn s ∧ nextIs (step s) (fun t => t.status.calValid != s.status.calValid && t.coef != s.coef) = true ∧
      stepsOn { s with status := { s.status with calValid := true } } := by
  refine ⟨⟨⟨_, rfl⟩, ?_⟩, by decide, ⟨_, rfl⟩, ?_⟩ <;> unfold resets <;> decide

/-- A host write, and the commits of PRES_COMP and SW_CHECK. -/
theorem witness_EachRegisterGroupHasItsWriters :
    stepsOn (withEvent (.hostWrite 0x0C0 4 7) s0) ∧
      nextIs (step (withEvent (.hostWrite 0x0C0 4 7) s0)) (fun t => t.frame != s0.frame) = true ∧
    stepsOn (ticking .high (computing 0x00000003 sn1)) ∧
      nextIs (step (ticking .high (computing 0x00000003 sn1))) (fun t => t.temp != s0.temp && t.pres != s0.pres) = true ∧
    stepsOn (ticking .high (computing 0x00000011 { snapshot s0 with frame0 := 0x028C00AF, frame1 := 0x3D })) := by
  refine ⟨⟨⟨_, rfl⟩, ?_⟩, by decide, ⟨⟨_, rfl⟩, ?_⟩, by decide +kernel, ⟨_, rfl⟩, ?_⟩ <;> unfold resets <;> decide

theorem witness_OverrunSetAndCleared :
    (let s := withEvent (.hostWrite 0x010 4 0x00000000) (reading .prep 0 .high)
     stepsOn s ∧ s.status.ovr = false ∧ nextIs (step s) (fun t => t.status.ovr) = true ∧ s.rstN = true ∧
       s.status.busy = true ∧ writesNext 0x010 0x00000000 s) ∧
    (let s := withEvent (.hostWrite 0x014 4 0x00000004) { s0 with status := { s0.status with ovr := true } }
     stepsOn s ∧ s.status.ovr = true ∧ nextIs (step s) (fun t => !t.status.ovr) = true ∧ s.rstN = true ∧
       writesNext 0x014 0x00000004 s ∧ (0x00000004 : Word).getLsbD 2 = true) := by
  refine ⟨⟨⟨⟨_, rfl⟩, ?_⟩, by decide, by decide, by decide, by decide, rfl⟩,
    ⟨⟨_, rfl⟩, ?_⟩, by decide, by decide, by decide, rfl, by decide⟩ <;> unfold resets <;> decide

/-- An illegal word's tick changes ERRCODE, sets DONE and clears BUSY. -/
theorem witness_ErrcodeWrittenOnlyAtACommit :
    let s := ticking .high (computing 0x00000005 Snap.reset)
    stepsOn s ∧ nextIs (step s) (fun t =>
      t.status.errcode != s.status.errcode && (!s.status.done && t.status.done) && (s.status.busy && !t.status.busy)) =
      true := by
  refine ⟨⟨⟨_, rfl⟩, ?_⟩, by decide⟩
  unfold resets
  decide

theorem witness_InterruptLevel :
    (0x00000002 : Word).getLsbD 1 = true ∧ (0x00000006 : Word).getLsbD 0 = false ∧
    (({ s0 with status := { s0.status with done := true } } : State).status.done = true ∧
      (0x00000001 : Word).getLsbD 0 = true) ∧
    (s0.status.busy = false ∧ ∃ t, exec .nop s0 = .next t) ∧
    (let s := ticking .high (computing 0x00000000 Snap.reset)
     stepsOn s ∧ s.status.busy = true ∧ nextIs (step s) (fun t => !t.status.busy) = true) := by
  refine ⟨by decide, by decide, by decide, ⟨rfl, _, rfl⟩, ⟨⟨_, rfl⟩, ?_⟩, by decide, by decide⟩
  unfold resets
  decide

/-- The commit of NOP, an acceptance, and host writes of 1 and of 0 to bit 1 of STATUS. -/
theorem witness_DoneSetAndCleared :
    (let s := ticking .high (computing 0x00000000 Snap.reset)
     stepsOn s ∧ s.status.busy = true ∧ s.status.done = false ∧
       nextIs (step s) (fun t => !t.status.busy && t.status.done) = true) ∧
    (let s := withEvent (.hostWrite 0x010 4 0x00000001) { s0 with status := { s0.status with done := true } }
     stepsOn s ∧ s.rstN = true ∧ s.status.busy = false ∧ writesNext 0x010 0x00000001 s ∧ s.status.done = true ∧
       nextIs (step s) (fun t => !t.status.done) = true) ∧
    (let s := withEvent (.hostWrite 0x014 4 0x00000002) { s0 with status := { s0.status with done := true } }
     stepsOn s ∧ s.rstN = true ∧ writesNext 0x014 0x00000002 s ∧ (0x00000002 : Word).getLsbD 1 = true ∧
       s.status.done = true ∧ nextIs (step s) (fun t => !t.status.done) = true) ∧
    (let s := withEvent (.hostWrite 0x014 4 0xFFFFFFFD) { s0 with status := { s0.status with done := true } }
     stepsOn s ∧ s.rstN = true ∧ writesNext 0x014 0xFFFFFFFD s ∧ (0xFFFFFFFD : Word).getLsbD 1 = false) := by
  refine ⟨⟨⟨⟨_, rfl⟩, ?_⟩, by decide⟩, ⟨⟨⟨_, rfl⟩, ?_⟩, ?_⟩, ⟨⟨⟨_, rfl⟩, ?_⟩, ?_⟩, ⟨⟨_, rfl⟩, ?_⟩, ?_⟩ <;>
    simp only [resets, writesNext] <;> decide

/-- The first register, and the last calibration byte. -/
theorem witness_WindowReachesEveryRegister :
    (let s := withEvent (.hostRead (regOffset .blkid) 4) s0
     s.rstN = true ∧ s.inputs = .hostRead (regOffset .blkid) 4 :: []) ∧
    (let s := withEvent (.hostWrite (regOffset (.calbyte 21)) 4 0x1FF) s0
     s.rstN = true ∧ Reg.calbyte 21 ≠ .cmd ∧ s.inputs = .hostWrite (regOffset (.calbyte 21)) 4 0x1FF :: []) := by decide

theorem witness_RegistersReadTheirFields : (received 0).eng.bitidx ≤ 40 := by decide

theorem witness_WrittenFieldsReadBack :
    Reg.calbyte 1 ≠ .calbyte 0 ∧ ¬ (Reg.calbyte 0 = .mode ∧ Reg.calbyte 1 = .modeinfo) := by decide

/-- 1.0, the least subnormal and the greatest finite number. -/
theorem witness_FloatOperationsRoundOnce :
    finitePattern 0x3FF0000000000000 ∧ finitePattern 1 ∧ finitePattern 0x7FEFFFFFFFFFFFFF ∧ ¬ zeroPattern 1 := by
  unfold finitePattern zeroPattern
  decide

theorem witness_FloatSpecialValues :
    nanPattern 0x7FF0000000000001 ∧ infPattern 0x7FF0000000000000 ∧ infPattern 0xFFF0000000000000 ∧
      (finitePattern 1 ∧ ¬ zeroPattern 1 ∧ zeroPattern 0x8000000000000000) ∧
      (negPattern 0x7FF0000000000000 ↔ ¬ negPattern 0xFFF0000000000000) ∧
      (negPattern 0x7FF0000000000000 ↔ negPattern 0x7FF0000000000000) ∧
      nanPattern (altitude (fun _ _ => 0x7FF8000000000123) 69965 f64One) := by
  unfold nanPattern infPattern finitePattern zeroPattern negPattern
  decide +kernel

theorem witness_NarrowOrMisalignedAccessErrors :
    (let s := withEvent (.hostWrite 0xFFC 2 0) s0
     s.rstN = true ∧ 0xFFC < 4096 ∧ (2 ≠ 4 ∨ 0xFFC % 4 ≠ 0) ∧ s.inputs = .hostWrite 0xFFC 2 0 :: []) ∧
    (let s := withEvent (.hostRead 0xFFF 4) s0
     s.rstN = true ∧ 0xFFF < 4096 ∧ (4 ≠ 4 ∨ 0xFFF % 4 ≠ 0) ∧ s.inputs = .hostRead 0xFFF 4 :: []) := by decide

theorem witness_ReadsHaveNoEffectAndWritesAreIdempotent :
    (let s := withEvent (.hostRead 0xFFC 4) s0
     s.rstN = true ∧ 0xFFC < 4096 ∧ 0xFFC % 4 = 0 ∧ s.inputs = .hostRead 0xFFC 4 :: []) ∧
    (withEvent .wait s0).rstN = true ∧ (withEvent .wait s0).inputs = .wait :: [] := by decide

/-- The first offset after the calibration bytes, and BLKID. -/
theorem witness_UnlistedAndReadOnlyIgnoreWrites :
    (let s := withEvent (.hostWrite 0x158 4 1) s0
     s.rstN = true ∧ 0x158 < 4096 ∧ 0x158 % 4 = 0 ∧ (∀ r : Reg, regOffset r ≠ 0x158) ∧
       s.inputs = .hostWrite 0x158 4 1 :: []) ∧ regOffset .blkid = 0 :=
  ⟨⟨rfl, by decide, by decide, fun r h => absurd (regOffset_lt r).1 (by omega), rfl⟩, rfl⟩

theorem witness_WarlFieldsStoreLegalValues :
    (0x6 : Word).toNat / 2 % 4 = 3 ∧ (0x4 : Word).toNat / 2 % 4 = 2 ∧ (0x2 : Word).toNat / 2 % 4 = 1 ∧
      (0x1 : Word).toNat / 2 % 4 = 0 := by decide

theorem witness_ModeInfoReportsTheConstants :
    (writeReg .mode 0 s0).host.mode.toNat = 0 ∧ s0.host.mode.toNat = 1 ∧ (writeReg .mode 2 s0).host.mode.toNat = 2 ∧
      (writeReg .mode 3 s0).host.mode.toNat = 3 := by decide

theorem witness_NormalisedPressureBounds : (refSnap 0 0xFFFFFF 3).mode.toNat ≤ 3 := by decide

theorem witness_TemperatureOutputsAreFinite :
    (-2147483648 : Int) ≤ -2147483648 ∧ (-2147483648 : Int) < 2147483648 := by decide

theorem witness_SmallIntegersConvertExactly : (-9007199254740991 : Int).natAbs < 2 ^ 53 := by decide

theorem witness_AltitudeAtTheReferenceIsZero :
    (-2147483648 : Int) ≤ 101325 ∧ (101325 : Int) < 2147483648 ∧ (101325 : Int) ≠ 0 := by decide

theorem witness_AltitudeDoesNotIncreaseWithPressure :
    (0 : Int) ≤ 0 ∧ (0 : Int) ≤ 2147483647 ∧ (2147483647 : Int) < 2147483648 ∧ f64Lt 0 f64SeaLevelDefault = true := by
  decide

theorem witness_ChecksumDetectsOneByte :
    (0x80#8) ≠ 0 ∧ checksum (0x02#8 ++ 0x8C#8 ++ 0x00#8 ++ 0xAF#8) = 0x3D#8 ∧
      0x80#8 + 0x80#8 + 0xFF#8 + 0x00#8 = 0xFF#8 := by decide

theorem witness_StepKeepsTheInvariant : StateInv s0 ∧ ∃ t, step s0 = .next t := by
  refine ⟨?_, _, rfl⟩
  constructor
  case bitidx_legal => exact Nat.zero_le 40
  case endstate_legal => exact .inl rfl
  all_goals decide

/-- A pressure operand, FRAME1 during a SW_CHECK, and TIMING at the level of the step. -/
theorem witness_HostWritesDoNotReachTheCommand :
    ((computing 0x00000003 sn1).status.busy = true ∧ Reg.rawp ≠ .status ∧
      ((Reg.rawp = .frame0 ∨ Reg.rawp = .frame1) → (computing 0x00000003 sn1).eng.cmd ≠ 0x00000010)) ∧
    ((computing 0x00000011 sn1).status.busy = true ∧ Reg.frame1 ≠ .status ∧
      ((Reg.frame1 = .frame0 ∨ Reg.frame1 = .frame1) → (computing 0x00000011 sn1).eng.cmd ≠ 0x00000010)) ∧
    (let s := reading .startLow 0 .high
     s.rstN = true ∧ Reg.timing ≠ .cmd ∧ Reg.timing ≠ .status ∧
       ((Reg.timing = .frame0 ∨ Reg.timing = .frame1) → s.status.busy = true → s.eng.cmd ≠ 0x00000010)) := by decide

/-- Two idle states with different registers and parameters and equal snapshots. -/
theorem witness_SwReadDependsOnSnapshotAndLine :
    let s' := { s0 with alt := 1, swsum := 7, par := { testParams with lastCompTick := 9 } }
    s0.status.busy = false ∧ s'.status.busy = false ∧
      ∃ a a', exec .swRead s0 = .next a ∧ exec .swRead s' = .next a' ∧ a.eng.snap = a'.eng.snap :=
  ⟨rfl, rfl, _, _, rfl, rfl, rfl⟩

theorem witness_ComputeCommandsCommitOnTime :
    (Instr.altComp ≠ .nop ∧ Instr.altComp ≠ .swRead ∧ s0.status.busy = false ∧ (∃ a, exec .altComp s0 = .next a) ∧
      ([] : List Level).length ≤ s0.par.lastCompTick.toNat) ∧
    ([Level.high].length = s0.par.lastCompTick.toNat + 1) ∧ (∃ a, exec .nop s0 = .next a) ∧
    (legalWord 0x00000005 = false ∧ ∃ a, writeCmd 0x00000005 s0 = .next a) :=
  ⟨⟨by decide, by decide, rfl, ⟨_, rfl⟩, by decide⟩, by decide, ⟨_, rfl⟩, by decide, _, rfl⟩

/-- WAIT_LIMIT_US = 1, the shortest bound. -/
theorem witness_BoundedSwReadCommits :
    let s := writeReg .timing 0x00011412 s0
    s.status.busy = false ∧ (∃ a, exec .swRead s = .next a) ∧ s.host.waitLimit ≠ 0 ∧ 18 ≤ s.host.startMs.toNat ∧
      20 ≤ s.host.releaseUs.toNat ∧
      (List.replicate 19704 Level.high).length =
        s.host.startMs.toNat * 1000 + s.host.releaseUs.toNat + 1602 + 82 * s.host.waitLimit.toNat := by
  refine ⟨rfl, ⟨_, rfl⟩, by decide, by decide, by decide, ?_⟩
  rw [List.length_replicate]
  decide

theorem witness_CompletedSwReadTakesItsTime :
    s0.status.busy = false ∧ (∃ a, exec .swRead s0 = .next a) ∧ 18 ≤ s0.host.startMs.toNat ∧
      20 ≤ s0.host.releaseUs.toNat ∧
      (List.replicate 19703 Level.high).length < s0.host.startMs.toNat * 1000 + s0.host.releaseUs.toNat + 1684 := by
  refine ⟨rfl, ⟨_, rfl⟩, by decide, by decide, ?_⟩
  rw [List.length_replicate]
  decide

/-- The silent line, High in ACK_LOW with WAIT_LIMIT_US = 0: at a tick, and at a host access whatever the next sample is. -/
theorem witness_UnboundedWaitHangs :
    (let s := ticking .high (bounded 0 (reading .ackLow 0 .high))
     unboundedWait s ∧ s.status.done = false ∧ awaited s.eng.seq = some .low ∧ ¬ resets s ∧
       (∀ rest, clockCycleNext rest s → s.rstN = true → s.div = s.par.clkPerTickPred → (sampleLine s).eng.swI ≠ .low) ∧
       ∃ t, step s = .next t) ∧
    (let s := withEvent (.hostWrite 0x010 4 0) { bounded 0 (reading .ackLow 0 .high) with lineIn := [.low] }
     unboundedWait s ∧ s.status.done = false ∧ awaited s.eng.seq = some .low ∧ ¬ resets s ∧
       (∀ rest, clockCycleNext rest s → s.rstN = true → s.div = s.par.clkPerTickPred → (sampleLine s).eng.swI ≠ .low) ∧
       ∃ t, step s = .next t) := by
  unfold resets
  refine ⟨⟨⟨rfl, rfl, by decide, rfl⟩, rfl, rfl, by decide, fun _ _ _ _ => by decide, _, rfl⟩,
    ⟨rfl, rfl, by decide, rfl⟩, rfl, rfl, by decide, fun rest h => ?_, _, rfl⟩
  rcases h with h | ⟨h, -⟩ <;> cases h

end Sys2Proof.Tests
end

section
/-! PROOF. One step by its event: a CMD write, or a clock cycle that does or does not end a tick (00_scope.md R16,
60_exceptions.md R194, R197, R198, R210). -/

namespace Sys2Proof.Machine

/-- A command decoded from an opcode field has its opcode in the table of R91. -/
theorem opcDefined_of_decodeOpc {opc : Byte} {i : Instr} (h : decodeOpc opc = some i) :
    definedOpcs.contains opc = true := by
  unfold decodeOpc at h
  split_ifs at h <;> (subst opc; decide)

/-- 30_encoding.md R92: a word that decodes is legal. -/
theorem legalWord_of_decode_ok {w : Word} {i : Instr} (h : decode w = .ok i) : legalWord w = true := by
  unfold decode at h
  split at h
  · next hr =>
    split at h
    · next hd => simp only [legalWord, rsvClear, opcDefined, hr, opcDefined_of_decodeOpc hd, decide_true, Bool.and_self]
    · cases h
  · cases h

theorem decode_error_of_illegal {w : Word} (h : legalWord w = false) : ∃ e, decode w = .error e := by
  cases hd : decode w with
  | ok i => rw [legalWord_of_decode_ok hd] at h; cases h
  | error e => exact ⟨e, rfl⟩

/-! ## An engine tick by what is in flight -/

theorem engineTick_of_decode {s : State} {i : Instr} (hb : s.status.busy = true) (hd : decode s.eng.cmd = .ok i) :
    engineTick s = exec i s := by
  simp only [engineTick, hb, hd, if_true]

theorem engineTick_of_illegal {s : State} (hb : s.status.busy = true) (hw : legalWord s.eng.cmd = false) :
    engineTick s = .next (ended .illegalCommand s) := by
  obtain ⟨e, he⟩ := decode_error_of_illegal hw
  simp only [engineTick, hb, he, if_true]
  rfl

theorem engineTick_of_idle {s : State} (hb : s.status.busy = false) : engineTick s = .next (counted s) := by
  simp only [engineTick, hb, Bool.false_eq_true, if_false]
  rfl

/-! ## A step by its event -/

/-- A write of a word to CMD out of reset hands it to the engine. -/
theorem step_of_cmdWrite {s : State} {rest : List Event} {w : Word} (hr : s.rstN = true)
    (hi : s.inputs = .hostWrite 0x010 4 w :: rest) :
    step s = writeCmd w { s with inputs := rest, resp := .ack } := by
  have hreg : regAt 0x010 = some .cmd := regAt_regOffset .cmd
  have hw : inWindow 0x010 = true := by decide
  have ha : accessLegal 0x010 4 = true := by decide
  simp only [step, nextEvent, hi, handleEvent, hostWrite, hw, hr, ha, hreg, if_true]

theorem writeCmd_of_decode {w : Word} {s : State} {i : Instr} (hb : s.status.busy = false) (hd : decode w = .ok i) :
    writeCmd w s = exec i s := by
  simp only [writeCmd, hb, hd, Bool.false_eq_true, if_false]

/-- A clock cycle that is lined up and one that passes with nothing lined up are the same step. -/
theorem step_of_clockCycle {s : State} {rest : List Event} (h : clockCycleNext rest s) :
    step s = clkCycle { s with inputs := rest } := by
  rcases h with hi | ⟨hi, rfl⟩
  · simp only [step, nextEvent, hi, handleEvent]
  · have he : { s with inputs := [] } = s := by rw [← hi]
    simp only [step, nextEvent, hi, he]

/-- The sample a tick takes: the listed one, or a free draw. -/
theorem sampleLine_of_sampledForTick {s a : State} {rest : List Event} (h : sampledForTick rest s a) :
    sampleLine { s with inputs := rest, div := 0 } = a := by
  rcases h with ⟨l, ls, hl, rfl⟩ | ⟨hl, rfl⟩ <;> simp only [sampleLine, sampled, hl]

/-- 60_exceptions.md R210: the last of P_CLK_PER_TICK clock cycles is a tick of the sampled state. -/
theorem step_of_tick {s a : State} {rest : List Event} (hr : s.rstN = true) (hd : s.div = s.par.clkPerTickPred)
    (hc : clockCycleNext rest s) (ha : sampledForTick rest s a) : step s = engineTick a := by
  rw [step_of_clockCycle hc, ← sampleLine_of_sampledForTick ha]
  simp only [clkCycle, hr, hd, paramClkPerTick, if_true]

/-- 60_exceptions.md R210: any other clock cycle only advances the divider. -/
theorem step_of_cycle_within_tick {s : State} {rest : List Event} (hr : s.rstN = true)
    (hd : s.div ≠ s.par.clkPerTickPred) (hc : clockCycleNext rest s) :
    step s = .next { s with inputs := rest, div := s.div + 1 } := by
  have hd' : ¬ s.div + 1 = s.par.clkPerTickPred + 1 := by omega
  rw [step_of_clockCycle hc]
  simp only [clkCycle, hr, paramClkPerTick, hd', if_true, if_false]

/-- Sampling the line starts, stops and replaces no command. -/
theorem busy_cmd_of_sampledForTick {s a : State} {rest : List Event} (h : sampledForTick rest s a) :
    a.status.busy = s.status.busy ∧ a.eng.cmd = s.eng.cmd := by
  rw [← sampleLine_of_sampledForTick h]
  simp

/-- Settles O5, by the event of the step and what is in flight. -/
theorem stepRunsTheDecodedCommand : Obligations.StepRunsTheDecodedCommand := by
  refine ⟨fun s rest w i hr hb hd hi => ?_, fun s a rest hr hd hc ha => ?_,
    fun s rest hr hd hc => step_of_cycle_within_tick hr hd hc⟩
  · rw [step_of_cmdWrite hr hi]
    exact writeCmd_of_decode hb hd
  · obtain ⟨hbusy, hcmd⟩ := busy_cmd_of_sampledForTick ha
    rw [step_of_tick hr hd hc ha, ← hbusy, ← hcmd]
    exact ⟨fun i => engineTick_of_decode, engineTick_of_illegal, engineTick_of_idle⟩

end Sys2Proof.Machine
end

section
/-! PROOF. Binary64 operations round the exact result once (00_scope.md R12). A finite pattern is a sign, a mantissa and
an exponent; `f64Round` picks the unit of the last place and the nearest multiple of it; every finite pattern is a
multiple of that unit or lies below the multiples it is compared with. -/

namespace Sys2Proof.Machine

/-! ## Signs -/

/-- The factor a sign bit stands for. -/
def signRat (neg : Bool) : ℚ := if neg then -1 else 1

@[simp] theorem signRat_true : signRat true = -1 := rfl
@[simp] theorem signRat_false : signRat false = 1 := rfl

@[simp] theorem abs_signRat (a : Bool) : |signRat a| = 1 := by cases a <;> simp

@[simp] theorem signRat_mul_self (a : Bool) : signRat a * signRat a = 1 := by cases a <;> simp

theorem signRat_not (a : Bool) : signRat (!a) = -signRat a := by cases a <;> simp

theorem signRat_xor (a b : Bool) : signRat (a ^^ b) = signRat a * signRat b := by cases a <;> cases b <;> simp

@[simp] theorem inv_signRat (a : Bool) : (signRat a)⁻¹ = signRat a := by cases a <;> simp [inv_neg]

theorem abs_signRat_mul (a : Bool) (x : ℚ) : |signRat a * x| = |x| := by rw [abs_mul, abs_signRat, one_mul]

/-- A distance is measured on the side of the sign. -/
theorem abs_signRat_mul_sub (a : Bool) (x w : ℚ) : |signRat a * x - w| = |x - signRat a * w| := by
  rw [← abs_signRat_mul a (x - signRat a * w), mul_sub, ← mul_assoc, signRat_mul_self, one_mul]

theorem signRat_decide_mul_natAbs (i : Int) : signRat (decide (i < 0)) * (i.natAbs : ℚ) = (i : ℚ) := by
  rw [Nat.cast_natAbs, Int.cast_abs]
  by_cases h : i < 0
  · rw [decide_eq_true h, abs_of_neg (by exact_mod_cast h)]; simp
  · rw [decide_eq_false h, abs_of_nonneg (by exact_mod_cast not_lt.mp h)]; simp

theorem signedMant_cast (neg : Bool) (m : Nat) : ((signedMant neg m : Int) : ℚ) = signRat neg * m := by
  cases neg <;> simp [signedMant]

/-! ## Powers of two -/

/-- A power of two as the quotient of the two shifts the model uses. -/
theorem two_zpow_eq_div (k : Int) : (2 : ℚ) ^ k = (2 ^ k.toNat : Nat) / (2 ^ (-k).toNat : Nat) := by
  have h : k = (k.toNat : Int) - ((-k).toNat : Int) := by omega
  conv_lhs => rw [h]
  rw [zpow_sub₀ two_ne_zero, zpow_natCast, zpow_natCast]
  push_cast
  rfl

theorem two_zpow_of_le {e' e : Int} (h : e' ≤ e) : (2 : ℚ) ^ e = ((2 ^ (e - e').toNat : Nat) : ℚ) * 2 ^ e' := by
  have he : e = ((e - e').toNat : Int) + e' := by omega
  conv_lhs => rw [he]
  rw [zpow_add₀ two_ne_zero, zpow_natCast]
  push_cast
  rfl

/-- Halfway between the greatest finite value and 2^1024, in that value's unit. -/
theorem overflow_threshold : (2 : ℚ) ^ 1024 - 2 ^ 970 = (2 ^ 53 - 1 / 2) * 2 ^ (971 : Int) := by
  have h1 : (2 : ℚ) ^ 1024 = 2 ^ 54 * 2 ^ 970 := by rw [← pow_add]
  have h2 : (2 : ℚ) ^ (971 : Int) = 2 * 2 ^ 970 := by rw [← pow_succ']; exact zpow_natCast _ _
  rw [h1, h2]
  generalize (2 : ℚ) ^ 970 = u
  ring

/-! ## Rounding to an integer -/

/-- The rounded quotient is within one half of the quotient, and even at exactly one half. -/
theorem roundHalfEven_near (n : Nat) {d : Nat} (hd : 0 < d) :
    |(n : ℚ) / d - roundHalfEven n d| ≤ 1 / 2 ∧
      (|(n : ℚ) / d - roundHalfEven n d| = 1 / 2 → roundHalfEven n d % 2 = 0) := by
  have hd' : (0 : ℚ) < d := by exact_mod_cast hd
  have hn : (n : ℚ) / d = (n / d : Nat) + ((n % d : Nat) : ℚ) / d := by
    rw [div_eq_iff hd'.ne', add_mul, div_mul_cancel₀ _ hd'.ne']
    exact_mod_cast (Nat.div_add_mod' n d).symm
  have hr : ((n % d : Nat) : ℚ) / d < 1 := by
    rw [div_lt_one hd']
    exact_mod_cast Nat.mod_lt n hd
  have hr0 : 0 ≤ ((n % d : Nat) : ℚ) / d := by positivity
  have hhalf : (d < 2 * (n % d) ↔ 1 / 2 < ((n % d : Nat) : ℚ) / d) ∧
      (2 * (n % d) = d ↔ ((n % d : Nat) : ℚ) / d = 1 / 2) := by
    rw [lt_div_iff₀ hd', div_eq_iff hd'.ne', ← Nat.cast_lt (α := ℚ), ← Nat.cast_inj (R := ℚ)]
    push_cast
    constructor <;> constructor <;> intro h <;> linarith
  simp only [roundHalfEven, hhalf.1, hhalf.2]
  rw [hn]
  generalize ((n % d : Nat) : ℚ) / d = r at *
  split
  · next hup =>
    push_cast
    have habs : |((n / d : Nat) : ℚ) + r - (((n / d : Nat) : ℚ) + 1)| = 1 - r := by
      rw [abs_of_nonpos (by linarith)]
      ring
    rw [habs]
    rcases hup with h | ⟨h, hodd⟩
    · exact ⟨by linarith, fun h' => by linarith⟩
    · exact ⟨by linarith, fun _ => by omega⟩
  · next hdown =>
    push Not at hdown
    rw [add_sub_cancel_left, abs_of_nonneg hr0]
    exact ⟨hdown.1, fun h => by have := hdown.2 h; omega⟩

/-- An exact quotient is kept. -/
theorem roundHalfEven_one (n : Nat) : roundHalfEven n 1 = n := by
  simp [roundHalfEven, Nat.mod_one]

/-- The integer within one half of `t` is a nearest one to `t`, among the integers and the numbers below an integer
that is at most `t`; another at the same distance makes it a tie. -/
theorem nearest_integer {t v : ℚ} {m : Nat} (hm : |t - m| ≤ 1 / 2) (heven : |t - m| = 1 / 2 → m % 2 = 0)
    (hv : (∃ c : Int, v = c) ∨ ∃ b : Int, v < b ∧ (b : ℚ) ≤ t) :
    |t - m| ≤ |t - v| ∧ (|t - m| = |t - v| → v = m ∨ m % 2 = 0) := by
  have hint (c : Int) (hne : c ≠ m) : 1 / 2 ≤ |t - c| := by
    have hcm : (1 : ℚ) ≤ |(c : ℚ) - m| := by
      exact_mod_cast Int.one_le_abs (sub_ne_zero.mpr hne)
    have htri : |(c : ℚ) - m| ≤ |t - m| + |t - c| := by
      rw [abs_sub_comm t (c : ℚ), add_comm]
      exact abs_sub_le _ _ _
    linarith
  rcases hv with ⟨c, rfl⟩ | ⟨b, hvb, hbt⟩
  · by_cases hc : c = m
    · subst hc
      simp
    · have h := hint c hc
      exact ⟨hm.trans h, fun he => .inr (heven (le_antisymm hm (he ▸ h)))⟩
  · have hlt : |t - m| < |t - v| := by
      have hb : |t - b| < |t - v| := by
        rw [abs_of_nonneg (by linarith), abs_of_pos (by linarith)]
        linarith
      by_cases hbm : b = m
      · subst hbm
        exact_mod_cast hb
      · exact hm.trans_lt ((hint b hbm).trans_lt hb)
    exact ⟨hlt.le, fun h => absurd h hlt.ne⟩

/-! ## The unit of the last place -/

/-- `floorLog2` brackets the quotient. -/
theorem floorLog2_bounds {n d : Nat} (hn : 0 < n) (hd : 0 < d) :
    (2 : ℚ) ^ floorLog2 n d ≤ (n : ℚ) / d ∧ (n : ℚ) / d < 2 ^ (floorLog2 n d + 1) := by
  have hd' : (0 : ℚ) < d := by exact_mod_cast hd
  have hlog (a : Nat) (ha : 0 < a) : (2 : ℚ) ^ (Nat.log2 a : Int) ≤ a ∧ (a : ℚ) < 2 ^ ((Nat.log2 a : Int) + 1) := by
    refine ⟨?_, ?_⟩
    · exact_mod_cast Nat.log2_self_le ha.ne'
    · exact_mod_cast Nat.lt_log2_self
  obtain ⟨hn1, hn2⟩ := hlog n hn
  obtain ⟨hd1, hd2⟩ := hlog d hd
  have hguess : d * 2 ^ ((Nat.log2 n : Int) - Nat.log2 d).toNat ≤ n * 2 ^ (-((Nat.log2 n : Int) - Nat.log2 d)).toNat ↔
      (2 : ℚ) ^ ((Nat.log2 n : Int) - Nat.log2 d) ≤ (n : ℚ) / d := by
    rw [two_zpow_eq_div, div_le_div_iff₀ (by positivity) hd', mul_comm d]
    exact_mod_cast Iff.rfl
  unfold floorLog2
  simp only [hguess]
  split
  · next h =>
    refine ⟨h, ?_⟩
    calc (n : ℚ) / d < 2 ^ ((Nat.log2 n : Int) + 1) / d := by gcongr
      _ ≤ 2 ^ ((Nat.log2 n : Int) + 1) / 2 ^ (Nat.log2 d : Int) := by gcongr
      _ = 2 ^ ((Nat.log2 n : Int) - Nat.log2 d + 1) := by
        rw [← zpow_sub₀ two_ne_zero]
        congr 1
        ring
  · next h =>
    rw [sub_add_cancel]
    refine ⟨?_, lt_of_not_ge h⟩
    calc (2 : ℚ) ^ ((Nat.log2 n : Int) - Nat.log2 d - 1)
        = 2 ^ (Nat.log2 n : Int) / 2 ^ ((Nat.log2 d : Int) + 1) := by
          rw [← zpow_sub₀ two_ne_zero]
          congr 1
          ring
      _ ≤ 2 ^ (Nat.log2 n : Int) / d := by gcongr
      _ ≤ (n : ℚ) / d := by gcongr

/-- The exponent `f64Round` gives the unit of the last place of n / d. -/
def ulpExp (n d : Nat) : Int := max (floorLog2 n d - 52) (-1074)

/-- The multiple of that unit `f64Round` rounds n / d to. -/
def ulpMant (n d : Nat) : Nat :=
  roundHalfEven (n * 2 ^ (-ulpExp n d).toNat) (d * 2 ^ (ulpExp n d).toNat)

/-- The magnitude field `f64Round` gives n / d before an overflow is cut off. -/
def roundedMag (n d : Nat) : Nat := (ulpExp n d + 1074).toNat * 2 ^ 52 + ulpMant n d

theorem f64Round_eq (neg : Bool) (num den : Nat) (e : Int) :
    f64Round neg num den e =
      if num * 2 ^ e.toNat = 0 then f64Zero neg
      else f64Signed neg (min (roundedMag (num * 2 ^ e.toNat) (den * 2 ^ (-e).toNat)) f64InfMag) := rfl

theorem ulpExp_ge (n d : Nat) : -1074 ≤ ulpExp n d := le_max_right _ _

/-- The multiple is the nearest one, the even one of two. -/
theorem ulpMant_near (n : Nat) {d : Nat} (hd : 0 < d) :
    |(n : ℚ) / d / 2 ^ ulpExp n d - ulpMant n d| ≤ 1 / 2 ∧
      (|(n : ℚ) / d / 2 ^ ulpExp n d - ulpMant n d| = 1 / 2 → ulpMant n d % 2 = 0) := by
  have h := roundHalfEven_near (n * 2 ^ (-ulpExp n d).toNat) (d := d * 2 ^ (ulpExp n d).toNat) (by positivity)
  have hq : ((n * 2 ^ (-ulpExp n d).toNat : Nat) : ℚ) / (d * 2 ^ (ulpExp n d).toNat : Nat) =
      (n : ℚ) / d / 2 ^ ulpExp n d := by
    rw [two_zpow_eq_div (ulpExp n d), Nat.cast_mul, Nat.cast_mul, div_div_eq_mul_div, div_mul_eq_mul_div, div_div]
  rwa [hq] at h

section
variable {n d : Nat} (hn : 0 < n) (hd : 0 < d)
include hn hd

theorem quot_lt_ulp : (n : ℚ) / d < 2 ^ 53 * 2 ^ ulpExp n d := by
  have h : floorLog2 n d + 1 ≤ 53 + ulpExp n d := by unfold ulpExp; omega
  calc (n : ℚ) / d < 2 ^ (floorLog2 n d + 1) := (floorLog2_bounds hn hd).2
    _ ≤ 2 ^ (53 + ulpExp n d) := zpow_le_zpow_right₀ one_le_two h
    _ = 2 ^ 53 * 2 ^ ulpExp n d := by rw [zpow_add₀ two_ne_zero]; norm_cast

theorem ulp_le_quot (h : ulpExp n d ≠ -1074) : 2 ^ 52 * 2 ^ ulpExp n d ≤ (n : ℚ) / d := by
  have hk : 52 + ulpExp n d = floorLog2 n d := by unfold ulpExp at h ⊢; omega
  calc (2 : ℚ) ^ 52 * 2 ^ ulpExp n d = 2 ^ (52 + ulpExp n d) := by rw [zpow_add₀ two_ne_zero]; norm_cast
    _ ≤ (n : ℚ) / d := hk ▸ (floorLog2_bounds hn hd).1

theorem ulpMant_le : ulpMant n d ≤ 2 ^ 53 := by
  have ht : (n : ℚ) / d / 2 ^ ulpExp n d < 2 ^ 53 := by
    rw [div_lt_iff₀ (by positivity)]
    exact quot_lt_ulp hn hd
  have hnear := (abs_le.mp (ulpMant_near n hd).1).1
  have hlt : (ulpMant n d : ℚ) < 2 ^ 53 + 1 := by linarith
  exact Nat.lt_succ_iff.mp (by exact_mod_cast hlt)

theorem le_ulpMant (h : ulpExp n d ≠ -1074) : 2 ^ 52 ≤ ulpMant n d := by
  have ht : 2 ^ 52 ≤ (n : ℚ) / d / 2 ^ ulpExp n d := by
    rw [le_div_iff₀ (by positivity)]
    exact ulp_le_quot hn hd h
  have hnear := (abs_le.mp (ulpMant_near n hd).1).2
  have hlt : (2 : ℚ) ^ 52 < ulpMant n d + 1 := by linarith
  exact Nat.lt_succ_iff.mp (by exact_mod_cast hlt)

/-- The mantissa carries from halfway between 2^53 - 1 and 2^53 on: 2^53 - 1 is odd, so the tie goes up. -/
theorem ulpMant_lt_iff : ulpMant n d < 2 ^ 53 ↔ (n : ℚ) / d / 2 ^ ulpExp n d < 2 ^ 53 - 1 / 2 := by
  obtain ⟨hnear, heven⟩ := ulpMant_near n hd
  obtain ⟨hlow, hhigh⟩ := abs_le.mp hnear
  rcases (ulpMant_le hn hd).eq_or_lt with htop | hlt
  · rw [htop] at hlow ⊢
    push_cast at hlow
    exact iff_of_false (lt_irrefl _) (by linarith)
  · refine iff_of_true hlt (lt_of_not_ge fun ht => ?_)
    have hle : (ulpMant n d : ℚ) + 1 ≤ 2 ^ 53 := by exact_mod_cast hlt
    have htie : ulpMant n d % 2 = 0 := heven (le_antisymm hnear (le_abs.mpr (.inl (by linarith))))
    have hge : (2 : ℚ) ^ 53 < ulpMant n d + 2 := by linarith
    have hge' : 2 ^ 53 < ulpMant n d + 2 := by exact_mod_cast hge
    omega

/-- A magnitude of 2^1024 less half a unit or more overflows, and no other does. -/
theorem roundedMag_lt_inf_iff : roundedMag n d < f64InfMag ↔ (n : ℚ) / d < 2 ^ 1024 - 2 ^ 970 := by
  have hge := ulpExp_ge n d
  have hm := ulpMant_le hn hd
  rw [overflow_threshold]
  unfold roundedMag f64InfMag
  rcases lt_trichotomy (ulpExp n d) 971 with hq | hq | hq
  · have hmag : (ulpExp n d + 1074).toNat * 2 ^ 52 + ulpMant n d < 0x7FF0000000000000 := by omega
    refine iff_of_true hmag ?_
    calc (n : ℚ) / d < 2 ^ 53 * 2 ^ ulpExp n d := quot_lt_ulp hn hd
      _ ≤ 2 ^ 53 * 2 ^ (970 : Int) := by gcongr <;> [norm_num; omega]
      _ = 2 ^ 52 * 2 ^ (971 : Int) := by
        rw [show (971 : Int) = 970 + 1 by norm_num, zpow_add_one₀ two_ne_zero]; ring
      _ ≤ (2 ^ 53 - 1 / 2) * 2 ^ (971 : Int) := by gcongr; norm_num
  · have hmag : (ulpExp n d + 1074).toNat * 2 ^ 52 + ulpMant n d < 0x7FF0000000000000 ↔ ulpMant n d < 2 ^ 53 := by
      omega
    rw [hmag, ulpMant_lt_iff hn hd, hq, div_lt_iff₀ (by positivity)]
  · have hm' := le_ulpMant hn hd (by omega)
    refine iff_of_false (by omega) (not_lt.mpr ?_)
    calc (2 ^ 53 - 1 / 2) * 2 ^ (971 : Int) ≤ (2 : ℚ) ^ 53 * 2 ^ (971 : Int) := by gcongr; norm_num
      _ = 2 ^ 52 * 2 ^ (972 : Int) := by
        rw [show (972 : Int) = 971 + 1 by norm_num, zpow_add_one₀ two_ne_zero]; ring
      _ ≤ 2 ^ 52 * 2 ^ ulpExp n d := by gcongr <;> [norm_num; omega]
      _ ≤ (n : ℚ) / d := ulp_le_quot hn hd (by omega)

end

/-! ## Patterns -/

theorem f64Signed_toNat (neg : Bool) {mag : Nat} (h : mag < 2 ^ 63) :
    (f64Signed neg mag).toNat = neg.toNat * 2 ^ 63 + mag := by
  rw [f64Signed, BitVec.toNat_append, BitVec.toNat_ofBool, BitVec.toNat_ofNat, Nat.mod_eq_of_lt h,
    ← Nat.shiftLeft_add_eq_or_of_lt h, Nat.shiftLeft_eq]

theorem f64Neg_eq_decide (x : F64) : f64Neg x = decide (x.toNat / 2 ^ 63 = 1) := by
  have hx := x.isLt
  rw [f64Neg, BitVec.getLsbD, Nat.testBit_eq_decide_div_mod_eq, Nat.mod_eq_of_lt (by omega)]

theorem negPattern_iff (x : F64) : negPattern x ↔ f64Neg x = true := by
  rw [f64Neg_eq_decide, decide_eq_true_eq, negPattern]

theorem f64Neg_f64Signed (neg : Bool) {mag : Nat} (h : mag < 2 ^ 63) : f64Neg (f64Signed neg mag) = neg := by
  rw [f64Neg_eq_decide, f64Signed_toNat neg h]
  cases neg <;> simp only [Bool.toNat_true, Bool.toNat_false, decide_eq_true_eq, decide_eq_false_iff_not] <;> omega

theorem finitePattern_f64Signed (neg : Bool) {mag : Nat} (h : mag < f64InfMag) : finitePattern (f64Signed neg mag) := by
  unfold f64InfMag at h
  rw [finitePattern, f64Signed_toNat neg (by omega)]
  omega

theorem infPattern_f64Inf (neg : Bool) : infPattern (f64Inf neg) := by
  rw [infPattern, f64Inf, f64Signed_toNat neg (by decide), Nat.mul_add_mod']
  rfl

/-- The exponent field. -/
def f64ExpField (x : F64) : Nat := x.toNat / 2 ^ 52 % 2048

/-- The mantissa of a finite pattern. -/
def f64Mant (x : F64) : Nat := if f64ExpField x = 0 then x.toNat % 2 ^ 52 else 2 ^ 52 + x.toNat % 2 ^ 52

/-- The exponent of a finite pattern's last place. -/
def f64Exp (x : F64) : Int := if f64ExpField x = 0 then -1074 else (f64ExpField x : Int) - 1075

theorem f64Rat_eq (x : F64) : f64Rat x = signRat (f64Neg x) * ((f64Mant x : ℚ) * 2 ^ f64Exp x) := by
  by_cases h : x.toNat / 2 ^ 52 % 2048 = 0 <;>
    simp only [f64Rat, signRat, f64Neg_eq_decide, decide_eq_true_eq, f64Mant, f64Exp, f64ExpField, h, if_true, if_false]

theorem f64Value_of_finite {x : F64} (h : finitePattern x) : f64Value x = .fin (f64Neg x) (f64Mant x) (f64Exp x) := by
  have hex : (x.extractLsb' 52 11).toNat = f64ExpField x := by
    rw [BitVec.extractLsb'_toNat, Nat.shiftRight_eq_div_pow, f64ExpField]
  have hfr : (x.extractLsb' 0 52).toNat = x.toNat % 2 ^ 52 := by
    rw [BitVec.extractLsb'_toNat, Nat.shiftRight_zero]
  have hfin : f64ExpField x ≠ 2047 := h
  simp only [f64Value, hex, hfr, if_neg hfin, f64Mant, f64Exp]
  split_ifs <;> rfl

theorem f64Mant_lt (x : F64) : f64Mant x < 2 ^ 53 := by
  unfold f64Mant
  split_ifs <;> omega

theorem f64Exp_ge (x : F64) : -1074 ≤ f64Exp x := by
  unfold f64Exp
  split_ifs <;> omega

theorem f64Mant_ne_zero {x : F64} (h : ¬ zeroPattern x) : f64Mant x ≠ 0 := by
  unfold zeroPattern at h
  unfold f64Mant f64ExpField
  split_ifs <;> omega

/-- The pattern that `f64Round` builds from a unit and a multiple of it stands for that multiple, whether or not the
mantissa has carried into the exponent field. -/
theorem f64Rat_f64Signed (neg : Bool) {q m : Nat} (hm : m ≤ 2 ^ 53) (hq : q = 0 ∨ 2 ^ 52 ≤ m)
    (hmag : q * 2 ^ 52 + m < f64InfMag) :
    f64Rat (f64Signed neg (q * 2 ^ 52 + m)) = signRat neg * ((m : ℚ) * 2 ^ ((q : Int) - 1074)) := by
  unfold f64InfMag at hmag
  have hlt : q * 2 ^ 52 + m < 2 ^ 63 := by omega
  have hnat := f64Signed_toNat neg hlt
  rw [f64Rat_eq, f64Neg_f64Signed neg hlt]
  congr 1
  have hfield : f64ExpField (f64Signed neg (q * 2 ^ 52 + m)) = (q * 2 ^ 52 + m) / 2 ^ 52 := by
    rw [f64ExpField, hnat]
    omega
  have hfrac : (f64Signed neg (q * 2 ^ 52 + m)).toNat % 2 ^ 52 = m % 2 ^ 52 := by
    rw [hnat]
    omega
  rw [f64Mant, f64Exp, hfield, hfrac]
  rcases hm.eq_or_lt with rfl | hm
  · have hf : (q * 2 ^ 52 + 2 ^ 53) / 2 ^ 52 = q + 2 := by omega
    rw [hf, if_neg (by omega), if_neg (by omega), show ((q + 2 : Nat) : Int) - 1075 = (q : Int) - 1074 + 1 by omega,
      zpow_add_one₀ two_ne_zero]
    norm_num
    ring
  · by_cases hm' : m < 2 ^ 52
    · obtain rfl : q = 0 := by omega
      have hf : (0 * 2 ^ 52 + m) / 2 ^ 52 = 0 := by omega
      rw [hf, if_pos rfl, if_pos rfl, Nat.mod_eq_of_lt hm']
      norm_num
    · have hf : (q * 2 ^ 52 + m) / 2 ^ 52 = q + 1 := by omega
      rw [hf, if_neg (by omega), if_neg (by omega), show 2 ^ 52 + m % 2 ^ 52 = m by omega,
        show ((q + 1 : Nat) : Int) - 1075 = (q : Int) - 1074 by omega]

/-- Counted in a unit of the last place, a finite number is an integer, or it lies below the numbers with that unit. -/
theorem f64Rat_multiple_or_below (z : F64) (a : Bool) (q : Int) :
    (∃ c : Int, signRat a * f64Rat z / 2 ^ q = c) ∨ q ≠ -1074 ∧ signRat a * f64Rat z / 2 ^ q < 2 ^ 52 := by
  have he := f64Exp_ge z
  by_cases h : q ≤ f64Exp z
  · left
    rw [f64Rat_eq, two_zpow_of_le h]
    refine ⟨signedMant (a ^^ f64Neg z) (f64Mant z * 2 ^ (f64Exp z - q).toNat), ?_⟩
    rw [signedMant_cast, signRat_xor, div_eq_iff (by positivity)]
    push_cast
    ring
  · right
    refine ⟨by omega, ?_⟩
    rw [div_lt_iff₀ (by positivity)]
    have hm : (f64Mant z : ℚ) < 2 ^ 53 := by exact_mod_cast f64Mant_lt z
    calc signRat a * f64Rat z ≤ |signRat a * f64Rat z| := le_abs_self _
      _ = f64Mant z * 2 ^ f64Exp z := by
        rw [f64Rat_eq, abs_signRat_mul, abs_signRat_mul, abs_of_nonneg (by positivity)]
      _ < 2 ^ 53 * 2 ^ f64Exp z := by gcongr
      _ = 2 ^ 52 * 2 ^ (f64Exp z + 1) := by rw [zpow_add_one₀ two_ne_zero]; ring
      _ ≤ 2 ^ 52 * 2 ^ q := by gcongr <;> [norm_num; omega]

/-! ## Rounding to a pattern -/

theorem f64Rat_roundedMag (neg : Bool) {n d : Nat} (hn : 0 < n) (hd : 0 < d) (h : roundedMag n d < f64InfMag) :
    f64Rat (f64Signed neg (roundedMag n d)) = signRat neg * ((ulpMant n d : ℚ) * 2 ^ ulpExp n d) := by
  have hge := ulpExp_ge n d
  have hexp : (((ulpExp n d + 1074).toNat : Int) - 1074) = ulpExp n d := by omega
  have hnormal : (ulpExp n d + 1074).toNat = 0 ∨ 2 ^ 52 ≤ ulpMant n d := by
    by_cases hq : ulpExp n d = -1074
    · exact .inl (by omega)
    · exact .inr (le_ulpMant hn hd hq)
  have hrat := f64Rat_f64Signed neg (ulpMant_le hn hd) hnormal h
  rwa [hexp] at hrat

/-- The pattern built is a nearest one, and its last bit is 0 where another is as near. -/
theorem roundedMag_nearest (neg : Bool) {n d : Nat} (hn : 0 < n) (hd : 0 < d) (h : roundedMag n d < f64InfMag)
    {x : ℚ} (hx : x = signRat neg * ((n : ℚ) / d)) {y : F64} (hy : y = f64Signed neg (roundedMag n d)) (z : F64) :
    |x - f64Rat y| ≤ |x - f64Rat z| ∧
      (|x - f64Rat y| = |x - f64Rat z| → f64Rat z = f64Rat y ∨ y.toNat % 2 = 0) := by
  subst hx hy
  have hu : (0 : ℚ) < 2 ^ ulpExp n d := by positivity
  have hscale (v : ℚ) :
      |(n : ℚ) / d - v| = |(n : ℚ) / d / 2 ^ ulpExp n d - v / 2 ^ ulpExp n d| * 2 ^ ulpExp n d := by
    rw [← sub_div, abs_div, abs_of_pos hu, div_mul_cancel₀ _ hu.ne']
  obtain ⟨hnear, heven⟩ := ulpMant_near n hd
  have hz : (∃ c : Int, signRat neg * f64Rat z / 2 ^ ulpExp n d = c) ∨
      ∃ b : Int, signRat neg * f64Rat z / 2 ^ ulpExp n d < b ∧ (b : ℚ) ≤ (n : ℚ) / d / 2 ^ ulpExp n d := by
    refine (f64Rat_multiple_or_below z neg (ulpExp n d)).imp_right fun ⟨hq, hlt⟩ => ⟨2 ^ 52, ?_, ?_⟩
    · exact_mod_cast hlt
    · rw [le_div_iff₀ hu]
      exact_mod_cast ulp_le_quot hn hd hq
  obtain ⟨hle, htie⟩ := nearest_integer hnear heven hz
  rw [abs_signRat_mul_sub, abs_signRat_mul_sub, f64Rat_roundedMag neg hn hd h, ← mul_assoc, signRat_mul_self, one_mul,
    hscale, hscale (signRat neg * f64Rat z), mul_div_cancel_right₀ _ hu.ne']
  refine ⟨mul_le_mul_of_nonneg_right hle hu.le, fun heq => ?_⟩
  rcases htie (mul_right_cancel₀ hu.ne' heq) with hv | hv
  · left
    rw [← (div_eq_iff hu.ne').mp hv, ← mul_assoc, signRat_mul_self, one_mul]
  · right
    rw [f64Signed_toNat neg (h.trans (by decide)), roundedMag]
    omega

theorem roundsTo_zero (neg : Bool) : roundsTo 0 (f64Zero neg) := by
  have hzero : f64Rat (f64Zero neg) = 0 := by
    have h := f64Rat_f64Signed neg (q := 0) (m := 0) (by decide) (.inl rfl) (by decide)
    simpa [f64Zero] using h
  have hpos : (0 : ℚ) < 2 ^ 1024 - 2 ^ 970 := sub_pos.mpr (pow_lt_pow_right₀ one_lt_two (by decide))
  refine ⟨fun h => absurd rfl h, fun _ => ⟨finitePattern_f64Signed neg (by decide), fun z _ => ?_⟩, fun h => ?_⟩
  · rw [hzero, sub_zero, abs_zero]
    exact ⟨abs_nonneg _, fun h => .inl (by simpa using h.symm)⟩
  · rw [abs_zero] at h
    exact absurd h (not_le.mpr hpos)

theorem roundsTo_roundedMag (neg : Bool) {n d : Nat} (hn : 0 < n) (hd : 0 < d) :
    roundsTo (signRat neg * ((n : ℚ) / d)) (f64Signed neg (min (roundedMag n d) f64InfMag)) := by
  have hpos : (0 : ℚ) < (n : ℚ) / d := by positivity
  have habs : |signRat neg * ((n : ℚ) / d)| = (n : ℚ) / d := by rw [abs_signRat_mul, abs_of_pos hpos]
  have hover := roundedMag_lt_inf_iff hn hd
  refine ⟨fun _ => ?_, fun h => ?_, fun h => ?_⟩
  · rw [negPattern_iff, f64Neg_f64Signed neg ((min_le_right _ _).trans_lt (by decide))]
    cases neg <;> simp [hpos.le, hpos]
  · rw [habs] at h
    have hmag := hover.mpr h
    rw [min_eq_left hmag.le]
    exact ⟨finitePattern_f64Signed neg hmag, fun z _ => roundedMag_nearest neg hn hd hmag rfl rfl z⟩
  · rw [habs] at h
    rw [min_eq_right (not_lt.mp fun hlt => not_lt.mpr h (hover.mp hlt))]
    exact infPattern_f64Inf neg

/-- 00_scope.md R12: `f64Round` rounds its number once. -/
theorem f64Round_roundsTo (neg : Bool) (num : Nat) {den : Nat} (hden : 0 < den) (e : Int) :
    roundsTo (signRat neg * ((num : ℚ) / den * 2 ^ e)) (f64Round neg num den e) := by
  have hquot : (num : ℚ) / den * 2 ^ e = (num * 2 ^ e.toNat : Nat) / (den * 2 ^ (-e).toNat : Nat) := by
    rw [two_zpow_eq_div, div_mul_div_comm, Nat.cast_mul, Nat.cast_mul]
  rw [f64Round_eq, hquot]
  split
  · next h =>
    rw [h, Nat.cast_zero, zero_div, mul_zero]
    exact roundsTo_zero neg
  · next h => exact roundsTo_roundedMag neg (Nat.pos_of_ne_zero h) (by positivity)

theorem f64RoundInt_roundsTo (zeroNeg : Bool) (n e : Int) : roundsTo ((n : ℚ) * 2 ^ e) (f64RoundInt zeroNeg n e) := by
  have h := f64Round_roundsTo (if n = 0 then zeroNeg else n < 0) n.natAbs one_pos e
  have hsign : signRat (if n = 0 then zeroNeg else n < 0) * (n.natAbs : ℚ) = n := by
    split
    · next h0 => simp [h0]
    · exact signRat_decide_mul_natAbs n
  rwa [Nat.cast_one, div_one, ← mul_assoc, hsign] at h

theorem f64OfInt_roundsTo (i : Int) : roundsTo (i : ℚ) (f64OfInt i) := by
  have h := f64Round_roundsTo (decide (i < 0)) i.natAbs one_pos 0
  rwa [Nat.cast_one, div_one, zpow_zero, mul_one, signRat_decide_mul_natAbs] at h

/-! ## The operations -/

/-- The exact sum is formed in the smaller of the two units. -/
theorem f64SumFin_roundsTo (a b : Bool) (m1 m2 : Nat) (e1 e2 : Int) :
    roundsTo (signRat a * (m1 * 2 ^ e1) + signRat b * (m2 * 2 ^ e2)) (f64SumFin a m1 e1 b m2 e2) := by
  have h := f64RoundInt_roundsTo (a && b)
    (signedMant a m1 * 2 ^ (e1 - min e1 e2).toNat + signedMant b m2 * 2 ^ (e2 - min e1 e2).toNat) (min e1 e2)
  have hsum : signRat a * (m1 * (2 : ℚ) ^ e1) + signRat b * (m2 * 2 ^ e2) =
      ((signedMant a m1 * 2 ^ (e1 - min e1 e2).toNat + signedMant b m2 * 2 ^ (e2 - min e1 e2).toNat : Int) : ℚ) *
        2 ^ min e1 e2 := by
    rw [two_zpow_of_le (min_le_left e1 e2), two_zpow_of_le (min_le_right e1 e2)]
    push_cast
    rw [signedMant_cast, signedMant_cast]
    ring
  rwa [← hsum] at h

/-- The product is exact before it is rounded. -/
theorem f64Rat_mul (x y : F64) :
    f64Rat x * f64Rat y =
      signRat (f64Neg x ^^ f64Neg y) * ((f64Mant x * f64Mant y : Nat) * 2 ^ (f64Exp x + f64Exp y)) := by
  rw [f64Rat_eq x, f64Rat_eq y, signRat_xor, zpow_add₀ two_ne_zero, Nat.cast_mul]
  ring

section
variable {x y z : F64} (hx : finitePattern x) (hy : finitePattern y)
include hx hy

theorem f64Add_roundsTo : roundsTo (f64Rat x + f64Rat y) (f64Add x y) := by
  rw [f64Add, f64Value_of_finite hx, f64Value_of_finite hy, f64Rat_eq x, f64Rat_eq y]
  exact f64SumFin_roundsTo _ _ _ _ _ _

theorem f64Sub_roundsTo : roundsTo (f64Rat x - f64Rat y) (f64Sub x y) := by
  rw [f64Sub, f64Value_of_finite hx, f64Value_of_finite hy, f64Rat_eq x, f64Rat_eq y, sub_eq_add_neg, ← neg_mul,
    ← signRat_not]
  exact f64SumFin_roundsTo _ _ _ _ _ _

theorem f64Mul_roundsTo : roundsTo (f64Rat x * f64Rat y) (f64Mul x y) := by
  have h := f64Round_roundsTo (f64Neg x ^^ f64Neg y) (f64Mant x * f64Mant y) one_pos (f64Exp x + f64Exp y)
  rw [f64Mul, f64Value_of_finite hx, f64Value_of_finite hy, f64Rat_mul]
  rwa [Nat.cast_one, div_one] at h

theorem f64Div_roundsTo (hy0 : ¬ zeroPattern y) : roundsTo (f64Rat x / f64Rat y) (f64Div x y) := by
  have hm := f64Mant_ne_zero hy0
  have h := f64Round_roundsTo (f64Neg x ^^ f64Neg y) (f64Mant x) (Nat.pos_of_ne_zero hm) (f64Exp x - f64Exp y)
  have hquot : f64Rat x / f64Rat y =
      signRat (f64Neg x ^^ f64Neg y) * ((f64Mant x : ℚ) / f64Mant y * 2 ^ (f64Exp x - f64Exp y)) := by
    rw [f64Rat_eq x, f64Rat_eq y, signRat_xor, zpow_sub₀ two_ne_zero, mul_div_mul_comm, mul_div_mul_comm,
      div_eq_mul_inv (signRat _), inv_signRat]
  rw [f64Div, f64Value_of_finite hx, f64Value_of_finite hy, hquot]
  simpa only [f64QuotValue, if_neg hm] using h

theorem f64Fma_roundsTo (hz : finitePattern z) : roundsTo (f64Rat x * f64Rat y + f64Rat z) (f64Fma x y z) := by
  rw [f64Fma, f64Value_of_finite hx, f64Value_of_finite hy, f64Value_of_finite hz, f64Rat_mul, f64Rat_eq z]
  exact f64SumFin_roundsTo _ _ _ _ _ _

end

/-- Settles O46: each operation hands its exact result to `f64Round`. -/
theorem floatOperationsRoundOnce : Obligations.FloatOperationsRoundOnce :=
  ⟨f64OfInt_roundsTo,
    fun _ _ hx hy => ⟨f64Add_roundsTo hx hy, f64Sub_roundsTo hx hy, f64Mul_roundsTo hx hy, f64Div_roundsTo hx hy⟩,
    fun _ _ _ hx hy hz => f64Fma_roundsTo hx hy hz⟩

/-! ## Exact conversions -/

/-- The unit of the last place of an integer below 2^53 is at most 1. -/
theorem ulpExp_nonpos {n : Nat} (hn : 0 < n) (h : n < 2 ^ 53) : ulpExp n 1 ≤ 0 := by
  by_contra hq
  have hle := ulp_le_quot hn one_pos (by omega)
  have hlt : (2 : ℚ) ^ 53 ≤ n := by
    calc (2 : ℚ) ^ 53 = 2 ^ 52 * 2 ^ (1 : Int) := by norm_num
      _ ≤ 2 ^ 52 * 2 ^ ulpExp n 1 := by gcongr <;> [norm_num; omega]
      _ ≤ n := by simpa using hle
  exact absurd h (not_lt.mpr (by exact_mod_cast hlt))

/-- An integer below 2^53 is a multiple of its unit, so rounding keeps it. -/
theorem ulpMant_mul_ulp {n : Nat} (hn : 0 < n) (h : n < 2 ^ 53) : (ulpMant n 1 : ℚ) * 2 ^ ulpExp n 1 = n := by
  have hq : (ulpExp n 1).toNat = 0 := Int.toNat_of_nonpos (ulpExp_nonpos hn h)
  rw [ulpMant, hq, pow_zero, mul_one, roundHalfEven_one, two_zpow_eq_div, hq, pow_zero, Nat.cast_one, Nat.cast_mul]
  field_simp

theorem roundedMag_lt_inf_of_lt {n : Nat} (hn : 0 < n) (h : n < 2 ^ 53) : roundedMag n 1 < f64InfMag := by
  have hq := ulpExp_nonpos hn h
  have hm := ulpMant_le hn one_pos
  unfold roundedMag f64InfMag
  omega

theorem f64OfInt_of_lt {i : Int} (hi : i ≠ 0) (h : i.natAbs < 2 ^ 53) :
    f64OfInt i = f64Signed (decide (i < 0)) (roundedMag i.natAbs 1) := by
  have hn : i.natAbs * 2 ^ (0 : Int).toNat = i.natAbs := mul_one _
  have hd : 1 * 2 ^ (-0 : Int).toNat = 1 := rfl
  rw [f64OfInt, f64Round_eq, hn, hd, if_neg (by omega), min_eq_left (roundedMag_lt_inf_of_lt (by omega) h).le]

/-- Settles O45: an integer below 2^53 is a multiple of the unit it is rounded to. -/
theorem smallIntegersConvertExactly : Obligations.SmallIntegersConvertExactly := by
  intro i h
  rcases eq_or_ne i 0 with rfl | hi
  · exact ⟨0, -1074, by decide, by simp⟩
  · have hn : 0 < i.natAbs := Int.natAbs_pos.mpr hi
    have hmag := roundedMag_lt_inf_of_lt hn h
    have hneg : f64Neg (f64OfInt i) = decide (i < 0) := by
      rw [f64OfInt_of_lt hi h, f64Neg_f64Signed _ (hmag.trans (by decide))]
    refine ⟨f64Mant (f64OfInt i), f64Exp (f64OfInt i), ?_, ?_⟩
    · rw [← hneg]
      exact f64Value_of_finite (f64OfInt_of_lt hi h ▸ finitePattern_f64Signed _ hmag)
    · have hval : f64Rat (f64OfInt i) = signRat (decide (i < 0)) * i.natAbs := by
        rw [f64OfInt_of_lt hi h, f64Rat_roundedMag _ hn one_pos hmag, ulpMant_mul_ulp hn h]
      rw [f64Rat_eq, hneg] at hval
      have hs : signRat (decide (i < 0)) ≠ 0 := left_ne_zero_of_mul_eq_one (signRat_mul_self _)
      exact mul_left_cancel₀ hs hval

end Sys2Proof.Machine
end

section
/-! PROOF. What an engine tick of a command in flight can do, said once (60_exceptions.md R196 to R198, 42_singlewire.md
R166): it counts, moves to the next phase, or commits what its command may write. -/

namespace Sys2Proof.Machine

theorem decodeOpc_eq_some {opc : Byte} {i : Instr} (h : decodeOpc opc = some i) : opc = opcode i := by
  unfold decodeOpc at h
  split_ifs at h <;> cases h <;> assumption

/-- A word that decodes is the word of its command. -/
theorem eq_encode_of_decode {w : Word} {i : Instr} (h : decode w = .ok i) : w = encode i := by
  unfold decode at h
  split at h
  · next hr =>
    split at h
    · next j hd =>
      cases h
      have hw : rsvField w ++ opcField w = w := BitVec.extractLsb'_append_extractLsb'
      rw [← hw, hr, decodeOpc_eq_some hd]
      rfl
    · cases h
  · cases h

theorem encode_eq_swRead_iff {i : Instr} : encode i = encode .swRead ↔ i = .swRead := by
  cases i <;> decide

/-- What the command `i` may have written, `s` before and `u` after, when it commits with the code `e`. -/
inductive CommitWrites (s : State) : Instr → ErrCode → State → Prop
  /-- An error that writes no result register. -/
  | fails {i : Instr} {e : ErrCode} (hok : e ≠ .ok) (hcom : e ≠ .communication) : CommitWrites s i e s
  | nop : CommitWrites s .nop .ok s
  | calLoad (hid : s.eng.snap.calid = s.par.expectedId) :
      CommitWrites s .calLoad .ok
        { s with coef := calDecode s.eng.snap.calbyte, status := { s.status with calValid := true } }
  | tempComp (x : TempResult) : CommitWrites s .tempComp .ok { s with temp := x }
  | presComp (x : TempResult) (y : PresResult) : CommitWrites s .presComp .ok { s with temp := x, pres := y }
  | altComp (x : TempResult) (y : PresResult) (z : F64) :
      CommitWrites s .altComp .ok { s with temp := x, pres := y, alt := z }
  /-- 42_singlewire.md R156. -/
  | timeout (hw : awaited s.eng.seq ≠ none) :
      CommitWrites s .swRead .timeout { s with eng := { s.eng with endstate := s.eng.seq } }
  /-- 42_singlewire.md R160, R166, with either outcome of the checksum. -/
  | swFinish (f : Frame) (x : Byte) (y : SwResult) {e : ErrCode} (hcom : e ≠ .communication) :
      CommitWrites s .swRead e
        { s with frame := f, eng := { s.eng with endstate := .swFinish }, swsum := x, sw := y }
  /-- 42_singlewire.md R167, with either outcome of the checksum. -/
  | swCheck (x : Byte) (y : SwResult) {e : ErrCode} (hcom : e ≠ .communication) :
      CommitWrites s .swCheck e { s with swsum := x, sw := y }

/-- What one tick of the command `i` in flight can do. -/
inductive TickEffect (s : State) (i : Instr) : State → Prop
  /-- It counts, and not at the last tick its phase allows. -/
  | counts (hlim : (wirePhase s.eng.seq = true ↔ i = .swRead) →
        ∀ n, phaseLimit s.par s.eng.snap s.eng.seq = some n → s.eng.cnt.toNat + 1 ≠ n) :
      TickEffect s i (count s)
  /-- SW_READ enters its next phase. -/
  | moves (q : Seq) (k : Nat) (b : BitVec 40) (hi : i = .swRead) (hq : wirePhase q = true)
      (hk : bitidxLegal s.eng.seq s.eng.bitidx → bitidxLegal q k) :
      TickEffect s i { s with eng := { s.eng with seq := q, cnt := 0, bitidx := k, shreg := b } }
  | commits {e : ErrCode} {u : State} (hu : CommitWrites s i e u) : TickEffect s i (commit e u)

theorem computeTick_effect {i : Instr} {s : State} {rule : State → State} (hi : i ≠ .swRead)
    (h : TickEffect s i (rule s)) : TickEffect s i (computeTick rule s) := by
  by_cases hc : s.eng.cnt.toNat + 1 = paramCompLatency s.par
  · rwa [computeTick_due hc]
  · rw [computeTick_waiting hc]
    refine .counts fun hphase n hn => ?_
    cases hq : s.eng.seq <;> simp_all [phaseLimit, wirePhase]

theorem calLoadCommit_effect (s : State) : TickEffect s .calLoad (calLoadCommit s) := by
  rcases calLoadCommit_cases s with ⟨hid, h⟩ | ⟨-, h⟩ <;> rw [h]
  · exact .commits (.calLoad hid)
  · exact .commits (.fails (by decide) (by decide))

theorem tempCompCommit_effect (s : State) : TickEffect s .tempComp (tempCompCommit s) := by
  rcases tempCompCommit_cases s with ⟨b5, -, h⟩ | ⟨e, he, h⟩ <;> rw [h]
  · exact .commits (.tempComp _)
  · rcases tempCompResult_error he with rfl | rfl <;> exact .commits (.fails (by decide) (by decide))

/-- The errors of PRES_COMP and ALT_COMP are errors. -/
theorem presCompResult_error_ne {sn : Snap} {e : ErrCode} (h : presCompResult sn = .error e) :
    e ≠ .ok ∧ e ≠ .communication := by
  rcases presCompResult_error h with rfl | rfl | rfl <;> decide

theorem presCompCommit_effect (s : State) : TickEffect s .presComp (presCompCommit s) := by
  rcases presCompCommit_cases s with ⟨o, -, h⟩ | ⟨e, he, h⟩ <;> rw [h]
  · exact .commits (.presComp _ _)
  · obtain ⟨hok, hcom⟩ := presCompResult_error_ne he
    exact .commits (.fails hok hcom)

theorem altCompCommit_effect (s : State) : TickEffect s .altComp (altCompCommit s) := by
  rcases altCompCommit_cases s with ⟨o, -, h⟩ | ⟨e, he, h⟩ <;> rw [h]
  · exact .commits (.altComp _ _ _)
  · obtain ⟨hok, hcom⟩ := presCompResult_error_ne he
    exact .commits (.fails hok hcom)

theorem swCheckCommit_effect (s : State) : TickEffect s .swCheck (swCheckCommit s) := by
  rcases checkAndConvert_cases s.eng.snap.frame0 s.eng.snap.frame1 s with ⟨-, h⟩ | ⟨-, h⟩ <;> rw [swCheckCommit, h]
  · exact .commits (.swCheck _ _ (by decide))
  · exact .commits (.swCheck _ s.sw (by decide))

theorem swFinish_effect (s : State) : TickEffect s .swRead (swFinish s) := by
  rcases checkAndConvert_cases (shregFrame0 s.eng.shreg) (shregF4 s.eng.shreg)
      { s with
        frame := { frame0 := shregFrame0 s.eng.shreg, frame1 := shregF4 s.eng.shreg }
        eng := { s.eng with endstate := .swFinish } } with ⟨-, h⟩ | ⟨-, h⟩ <;> rw [swFinish, h]
  · exact .commits (.swFinish _ _ _ (by decide))
  · exact .commits (.swFinish _ _ s.sw (by decide))

theorem fixedPhase_effect {ticks : Nat} {q : Seq} {s : State}
    (hlim : phaseLimit s.par s.eng.snap s.eng.seq = some ticks) (hq : wirePhase q = true)
    (hk : bitidxLegal s.eng.seq s.eng.bitidx → bitidxLegal q s.eng.bitidx) :
    TickEffect s .swRead (fixedPhase ticks q s) := by
  rcases fixedPhase_cases ticks q s with ⟨-, h⟩ | ⟨hne, h⟩ <;> rw [h]
  · exact .moves q _ s.eng.shreg rfl hq hk
  · exact .counts fun _ n hn => by rwa [← Option.some.inj (hlim.symm.trans hn)]

theorem bitDelayTick_effect {s : State} (hs : s.eng.seq = .bitDelay) : TickEffect s .swRead (bitDelayTick s) := by
  rcases bitDelayTick_cases s with ⟨-, h⟩ | ⟨hne, h⟩ <;> rw [h]
  · exact .moves .bitRestore _ (shiftIn s.eng.shreg s.eng.swI) rfl rfl (by rw [hs]; exact id)
  · refine .counts fun _ n hn h40 => hne ?_
    rw [hs] at hn
    cases hn
    exact BitVec.eq_of_toNat_eq (by simpa using h40)

/-- A wait ends, times out or goes on (42_singlewire.md R155, R156). -/
theorem levelWait_effect {v : Level} {advance : State → State} {s : State} (hs : awaited s.eng.seq = some v)
    (h : TickEffect s .swRead (advance s)) : TickEffect s .swRead (levelWait v advance s) := by
  rcases levelWait_cases v advance s with ⟨-, hw⟩ | ⟨-, -, -, hw⟩ | ⟨-, hlim, hw⟩ <;> rw [hw]
  · exact h
  · exact .commits (.timeout (by simp [hs]))
  · refine .counts fun _ n hn hc => ?_
    cases hq : s.eng.seq <;> simp_all [phaseLimit, awaited]

theorem bitDone_effect {s : State} (hs : s.eng.seq = .bitRestore) : TickEffect s .swRead (bitDone s) := by
  refine .moves (if s.eng.bitidx + 1 = 40 then .swFinish else .bitEdge) (s.eng.bitidx + 1) s.eng.shreg rfl ?_ ?_
  · split <;> rfl
  · rw [hs]
    intro hk
    simp only [bitidxLegal] at hk
    split <;> simp only [bitidxLegal] <;> omega

/-- A phase of SW_READ that moves on and keeps its bit count. -/
theorem goto_effect {q : Seq} {s : State} (hq : wirePhase q = true)
    (hk : bitidxLegal s.eng.seq s.eng.bitidx → bitidxLegal q s.eng.bitidx) : TickEffect s .swRead (goto q s) :=
  .moves q _ s.eng.shreg rfl hq hk

/-- SW_READ, phase by phase. -/
theorem swReadTick_effect (s : State) : TickEffect s .swRead (swReadTick s) := by
  unfold swReadTick
  cases hs : s.eng.seq with
  | prep => exact goto_effect rfl (by rw [hs]; exact id)
  | startLow => exact fixedPhase_effect (by rw [hs]; rfl) rfl (by rw [hs]; exact id)
  | release => exact fixedPhase_effect (by rw [hs]; rfl) rfl (by rw [hs]; exact id)
  | ackLow => exact levelWait_effect (by rw [hs]; rfl) (goto_effect rfl (by rw [hs]; exact id))
  | ackHigh =>
    refine levelWait_effect (by rw [hs]; rfl) (goto_effect rfl ?_)
    rw [hs]
    intro (hk : _ = 0)
    simp [bitidxLegal, hk]
  | bitEdge => exact levelWait_effect (by rw [hs]; rfl) (goto_effect rfl (by rw [hs]; exact id))
  | bitDelay => exact bitDelayTick_effect hs
  | bitRestore => exact levelWait_effect (by rw [hs]; rfl) (bitDone_effect hs)
  | swFinish => exact swFinish_effect s
  | idle => exact .counts (by simp [hs, wirePhase])
  | compute => exact .counts (by simp [hs, wirePhase])

theorem tickOf_effect (i : Instr) (s : State) : TickEffect s i (tickOf i s) := by
  cases i with
  | nop => exact .commits .nop
  | calLoad => exact computeTick_effect (by decide) (calLoadCommit_effect s)
  | tempComp => exact computeTick_effect (by decide) (tempCompCommit_effect s)
  | presComp => exact computeTick_effect (by decide) (presCompCommit_effect s)
  | altComp => exact computeTick_effect (by decide) (altCompCommit_effect s)
  | swRead => exact swReadTick_effect s
  | swCheck => exact computeTick_effect (by decide) (swCheckCommit_effect s)

end Sys2Proof.Machine
end

section
/-! PROOF. Every step keeps the invariant of Safety.lean: one lemma per thing a step can do. -/

namespace Sys2Proof.Machine

/-! ## The limits of the phases (10_state.md R61) -/

/-- No limit exceeds what the 32 bits of `cnt` can count. -/
theorem phaseLimit_le {p : Params} {sn : Snap} {q : Seq} {n : Nat} (h : phaseLimit p sn q = some n) : n ≤ 2 ^ 32 := by
  have hstart := sn.startMs.isLt
  have hrelease := sn.releaseUs.isLt
  have hwait := sn.waitLimit.isLt
  have hlast := p.lastCompTick.isLt
  cases q <;> simp only [phaseLimit, startTicks, paramCompLatency, Option.ite_none_left_eq_some, Option.some.injEq,
    reduceCtorEq] at h <;> omega

/-- With legal timings every phase takes at least one tick. -/
theorem phaseLimit_pos {p : Params} {sn : Snap} {q : Seq} {n : Nat}
    (hsn : 18 ≤ sn.startMs.toNat ∧ 20 ≤ sn.releaseUs.toNat ∧ sn.releaseUs.toNat ≤ 40)
    (h : phaseLimit p sn q = some n) : 0 < n := by
  have hwait : sn.waitLimit ≠ 0 → sn.waitLimit.toNat ≠ 0 := fun h0 hz => h0 (BitVec.eq_of_toNat_eq hz)
  cases q <;> simp only [phaseLimit, startTicks, paramCompLatency, Option.ite_none_left_eq_some, Option.some.injEq,
    reduceCtorEq] at h <;> grind

/-- A count that does not reach the limit stays below it. -/
theorem toNat_add_one_lt {c : BitVec 32} {n : Nat} (hlt : c.toNat < n) (hne : c.toNat + 1 ≠ n) (hn : n ≤ 2 ^ 32) :
    (c + 1).toNat < n := by
  have hadd : (c + 1).toNat = c.toNat + 1 := by
    rw [BitVec.toNat_add]
    exact Nat.mod_eq_of_lt (by simp; omega)
  omega

theorem bitidxLegal_idle {q : Seq} {k : Nat} (h : bitidxLegal q k) : bitidxLegal .idle k := by
  cases q <;> simp only [bitidxLegal] at h ⊢ <;> omega

/-! ## Reset -/

/-- With `rst_n` high the invariant asks for no reset values. -/
theorem held_of_rstN_high {s : State} (hr : s.rstN = true) : s.rstN = false → s = holdReset s := by simp [hr]

/-- The invariant of a state that holds its reset values, at either level of `rst_n`. -/
theorem stateInv_of_reset_values {s : State} (hhost : s.host = HostRegs.reset) (hst : s.status = Status.reset)
    (heng : s.eng = Engine.reset) (hcoef : s.coef = Coefs.zero) (hdiv : s.div = 0)
    (hheld : s.rstN = false → s = holdReset s) : StateInv s where
  busy_iff := by rw [hst, heng]; decide
  done_idle := by rw [hst]; nofun
  wire_cmd := by rw [heng]; nofun
  compute_cmd := by rw [heng]; nofun
  lastop_cmd := by rw [hst]; nofun
  start_range := by rw [hhost]; decide
  release_range := by rw [hhost]; decide
  snap_range := by rw [hst]; nofun
  bitidx_legal := by rw [heng]; exact Nat.zero_le 40
  cnt_legal := by rw [heng]; nofun
  endstate_legal := by rw [heng]; exact .inl rfl
  errcode_legal := by rw [hst]; decide
  coef_valid := fun _ => hcoef
  div_lt := by rw [hdiv]; exact Nat.succ_pos _
  held := hheld

theorem stateInv_holdReset (s : State) : StateInv (holdReset s) :=
  stateInv_of_reset_values rfl rfl rfl rfl rfl fun _ => rfl

/-- Settles O52: the reset state holds its reset values. -/
theorem resetMeetsTheInvariant : Obligations.ResetMeetsTheInvariant := fun _ =>
  stateInv_of_reset_values rfl rfl rfl rfl rfl (held_of_rstN_high rfl)

/-! ## Events without effect on the engine -/

section
variable {s : State} (h : StateInv s)
include h

/-- The bus's answer and what is lined up are no part of the invariant. -/
theorem StateInv.respond (r : HostResp) (i : List Event) : StateInv { s with resp := r, inputs := i } :=
  { h with held := fun hr => congrArg (fun u : State => { u with resp := r, inputs := i }) (h.held hr) }

theorem StateInv.release (i : List Event) : StateInv { s with rstN := true, inputs := i } :=
  { h with held := held_of_rstN_high rfl }

theorem StateInv.withDiv (hr : s.rstN = true) {d : Nat} (hd : d < paramClkPerTick s.par) :
    StateInv { s with div := d } :=
  { h with
    div_lt := hd
    held := held_of_rstN_high hr }

theorem StateInv.sampleLine (hr : s.rstN = true) : StateInv (sampleLine s) := by
  unfold Machine.sampleLine
  split <;> exact { h with held := held_of_rstN_high hr }

/-- SW_READ's phases are those of a SW_READ in flight. -/
theorem StateInv.wirePhase_iff {i : Instr} (hb : s.status.busy = true) (hcmd : s.eng.cmd = encode i) :
    wirePhase s.eng.seq = true ↔ i = .swRead := by
  rw [← encode_eq_swRead_iff, ← hcmd]
  refine ⟨h.wire_cmd, fun hw => ?_⟩
  have hidle := h.busy_iff.mp hb
  have hcompute := fun hc => h.compute_cmd hc hw
  cases hs : s.eng.seq <;> simp_all [wirePhase]

/-! ## Host writes -/

theorem StateInv.dropCommand (hr : s.rstN = true) : StateInv (dropCommand s) :=
  { h with held := held_of_rstN_high hr }

end

theorem warlStartMs_toNat (v : Byte) : (warlStartMs v).toNat = max v.toNat 18 := by
  have h18 : (18 : Byte).toNat = 18 := rfl
  unfold warlStartMs
  split <;> omega

theorem warlReleaseUs_toNat (v : Byte) : (warlReleaseUs v).toNat = min (max v.toNat 20) 40 := by
  have h20 : (20 : Byte).toNat = 20 := rfl
  have h40 : (40 : Byte).toNat = 40 := rfl
  unfold warlReleaseUs
  split_ifs <;> omega

/-- 10_state.md R26, R27: a write keeps both timings or stores legal values in both. -/
theorem writeHostRegs_timings (r : Reg) (v : Word) (g : HostRegs) :
    (writeHostRegs r v g).startMs = g.startMs ∧ (writeHostRegs r v g).releaseUs = g.releaseUs ∨
    (writeHostRegs r v g).startMs = warlStartMs (v.extractLsb' 0 8) ∧
      (writeHostRegs r v g).releaseUs = warlReleaseUs (v.extractLsb' 8 8) := by
  cases r with
  | timing => exact .inr ⟨rfl, rfl⟩
  | _ => exact .inl ⟨rfl, rfl⟩

/-! A write to STATUS clears DONE and OVR and nothing else (10_state.md R58). -/

section
variable (r : Reg) (v : Word) (f : Status)

@[simp] theorem ite_statusW1C_busy : (if r = .status then statusW1C v f else f).busy = f.busy := by split <;> rfl

@[simp] theorem ite_statusW1C_calValid : (if r = .status then statusW1C v f else f).calValid = f.calValid := by
  split <;> rfl

@[simp] theorem ite_statusW1C_errcode : (if r = .status then statusW1C v f else f).errcode = f.errcode := by
  split <;> rfl

@[simp] theorem ite_statusW1C_lastop : (if r = .status then statusW1C v f else f).lastop = f.lastop := by
  split <;> rfl

theorem done_of_ite_statusW1C (h : (if r = .status then statusW1C v f else f).done = true) : f.done = true := by
  split at h <;> simp_all

end

section
variable {s : State} (h : StateInv s) (hr : s.rstN = true)
include h hr

theorem StateInv.writeReg (r : Reg) (v : Word) : StateInv (writeReg r v s) where
  busy_iff := by simpa using h.busy_iff
  done_idle := by simpa using fun hd => h.done_idle (done_of_ite_statusW1C r v _ hd)
  wire_cmd := h.wire_cmd
  compute_cmd := h.compute_cmd
  lastop_cmd := by simpa using h.lastop_cmd
  start_range := by
    rw [writeReg_host]
    rcases writeHostRegs_timings r v s.host with ⟨hs, -⟩ | ⟨hs, -⟩ <;> rw [hs]
    · exact h.start_range
    · rw [warlStartMs_toNat]
      omega
  release_range := by
    rw [writeReg_host]
    rcases writeHostRegs_timings r v s.host with ⟨-, hs⟩ | ⟨-, hs⟩ <;> rw [hs]
    · exact h.release_range
    · rw [warlReleaseUs_toNat]
      omega
  snap_range := by simpa using h.snap_range
  bitidx_legal := h.bitidx_legal
  cnt_legal := h.cnt_legal
  endstate_legal := h.endstate_legal
  errcode_legal := by simpa using h.errcode_legal
  coef_valid := by simpa using h.coef_valid
  div_lt := h.div_lt
  held := held_of_rstN_high hr

/-- 60_exceptions.md R194: a word enters its first phase with the snapshot of legal timings. -/
theorem StateInv.enter {w : Word} {q : Seq} {k : Nat} (b : BitVec 40) (hq : q ≠ .idle)
    (hwire : wirePhase q = true → w = encode .swRead) (hcompute : q = .compute → w ≠ encode .swRead)
    (hk : bitidxLegal q k) :
    StateInv { s with
      status := statusAccept w s.status
      eng := { s.eng with seq := q, cnt := 0, bitidx := k, shreg := b, cmd := w, snap := snapshot s } } :=
  { h with
    busy_iff := ⟨fun _ => hq, fun _ => rfl⟩
    done_idle := nofun
    wire_cmd := hwire
    compute_cmd := hcompute
    lastop_cmd := fun _ => rfl
    snap_range := fun _ => ⟨h.start_range, h.release_range⟩
    bitidx_legal := hk
    cnt_legal := fun _ hn => phaseLimit_pos ⟨h.start_range, h.release_range⟩ hn
    held := held_of_rstN_high hr }

/-- SW_READ starts in PREP and every other word in COMPUTE. -/
theorem StateInv.accept (w : Word) : StateInv (accept w s) := by
  unfold Machine.accept
  split
  · next hw => exact h.enter hr 0 (by decide) (fun _ => hw) nofun rfl
  · next hw => exact h.enter hr s.eng.shreg (by decide) nofun (fun _ => hw) (bitidxLegal_idle h.bitidx_legal)

theorem StateInv.writeCmd {w : Word} {t : State} (ht : writeCmd w s = .next t) : StateInv t := by
  rcases writeCmd_cases ht with ⟨-, rfl⟩ | ⟨-, i, -, rfl⟩ | ⟨-, -, rfl⟩
  · exact h.dropCommand hr
  · exact h.accept hr _
  · exact h.accept hr w

/-! ## Ticks -/

theorem StateInv.count
    (hlim : ∀ n, phaseLimit s.par s.eng.snap s.eng.seq = some n → s.eng.cnt.toNat + 1 ≠ n) : StateInv (count s) :=
  { h with
    cnt_legal := fun n hn => toNat_add_one_lt (h.cnt_legal n hn) (hlim n hn) (phaseLimit_le hn)
    held := held_of_rstN_high hr }

theorem StateInv.move {q : Seq} {k : Nat} (b : BitVec 40) (hb : s.status.busy = true)
    (hcmd : s.eng.cmd = encode .swRead) (hq : wirePhase q = true) (hk : bitidxLegal q k) :
    StateInv { s with eng := { s.eng with seq := q, cnt := 0, bitidx := k, shreg := b } } :=
  { h with
    busy_iff := ⟨fun _ hidle => (by rw [show q = .idle from hidle] at hq; cases hq), fun _ => hb⟩
    wire_cmd := fun _ => hcmd
    compute_cmd := fun hc => (by rw [show q = .compute from hc] at hq; cases hq)
    bitidx_legal := hk
    cnt_legal := fun n hn => phaseLimit_pos (h.snap_range hb) hn
    held := held_of_rstN_high hr }

/-- What a commit writes before the flags keeps the invariant. -/
theorem StateInv.commitWrites {i : Instr} {e : ErrCode} {u : State} (hu : CommitWrites s i e u) :
    StateInv u ∧ u.rstN = true ∧ e ≠ .communication := by
  cases hu with
  | fails _ hcom => exact ⟨h, hr, hcom⟩
  | nop => exact ⟨h, hr, by decide⟩
  | calLoad => exact ⟨{ h with coef_valid := nofun, held := held_of_rstN_high hr }, hr, by decide⟩
  | tempComp => exact ⟨{ h with held := held_of_rstN_high hr }, hr, by decide⟩
  | presComp => exact ⟨{ h with held := held_of_rstN_high hr }, hr, by decide⟩
  | altComp => exact ⟨{ h with held := held_of_rstN_high hr }, hr, by decide⟩
  | timeout hw => exact ⟨{ h with endstate_legal := .inr (.inr hw), held := held_of_rstN_high hr }, hr, by decide⟩
  | swFinish _ _ _ hcom => exact ⟨{ h with endstate_legal := .inr (.inl rfl), held := held_of_rstN_high hr }, hr, hcom⟩
  | swCheck _ _ hcom => exact ⟨{ h with held := held_of_rstN_high hr }, hr, hcom⟩

/-- 60_exceptions.md R196: the commit leaves SWCP in IDLE. -/
theorem StateInv.commit {e : ErrCode} (he : e ≠ .communication) : StateInv (commit e s) :=
  { h with
    busy_iff := ⟨nofun, fun hs => absurd rfl hs⟩
    done_idle := fun _ => rfl
    wire_cmd := nofun
    compute_cmd := nofun
    lastop_cmd := nofun
    snap_range := nofun
    bitidx_legal := bitidxLegal_idle h.bitidx_legal
    cnt_legal := nofun
    errcode_legal := he
    held := held_of_rstN_high hr }

/-- One tick of the command in flight. -/
theorem StateInv.tickOf {i : Instr} (hb : s.status.busy = true) (hcmd : s.eng.cmd = encode i) :
    StateInv (tickOf i s) := by
  have hphase := h.wirePhase_iff hb hcmd
  have heffect := tickOf_effect i s
  generalize Machine.tickOf i s = t at heffect ⊢
  cases heffect with
  | counts hlim => exact h.count hr (hlim hphase)
  | moves q k b hi hq hk => exact h.move hr b hb (hi ▸ hcmd) hq (hk h.bitidx_legal)
  | commits hu =>
    obtain ⟨h', hr', he⟩ := h.commitWrites hr hu
    exact h'.commit hr' he

theorem StateInv.engineTick {t : State} (ht : engineTick s = .next t) : StateInv t := by
  rcases engineTick_cases ht with ⟨hb, rfl⟩ | ⟨hb, i, hd, rfl⟩ | ⟨hb, -, rfl⟩
  · have hidle : s.eng.seq = .idle := by
      by_contra hne
      rw [h.busy_iff.mpr hne] at hb
      cases hb
    exact h.count hr fun n hn => by rw [hidle] at hn; cases hn
  · exact h.tickOf hr hb (eq_encode_of_decode hd)
  · exact h.commit hr (by decide)

end

/-! ## The step -/

theorem StateInv.clkCycle {s t : State} (h : StateInv s) (ht : clkCycle s = .next t) : StateInv t := by
  rcases clkCycle_cases ht with ⟨-, rfl⟩ | ⟨hr, -, ht⟩ | ⟨hr, hd, rfl⟩
  · exact h
  · have h0 : StateInv { s with div := 0 } := h.withDiv hr (Nat.succ_pos _)
    exact (h0.sampleLine hr).engineTick (by simpa using hr) ht
  · have hlt := h.div_lt
    exact h.withDiv hr (by omega)

/-- Settles O53, by what the step did. -/
theorem stepKeepsTheInvariant : Obligations.StepKeepsTheInvariant := by
  intro s t h ht
  rcases step_cases ht with ⟨r, i, rfl⟩ | ⟨i, rfl⟩ | ⟨-, i, rfl⟩ | ⟨w, rest, hr, -, ht⟩ |
    ⟨r, -, v, rest, hr, -, -, -, rfl⟩ | ⟨i, -, ht⟩
  · exact h.respond r i
  · exact h.release i
  · exact stateInv_holdReset _
  · exact (h.respond .ack rest).writeCmd hr ht
  · exact (h.respond .ack rest).writeReg hr r v
  · exact (h.respond s.resp i).clkCycle ht

end Sys2Proof.Machine
end

section
/-! PROOF. What a step that is no reset can do to the registers, said once, and who writes each of them
(10_state.md R30 to R34, R65; 60_exceptions.md R196). -/

namespace Sys2Proof.Machine

theorem sampleLine_eq (s : State) :
    ∃ l ls k, sampleLine s = { s with eng := { s.eng with swI := l }, lineIn := ls, draws := k } := by
  unfold sampleLine
  split
  · exact ⟨_, _, s.draws, rfl⟩
  · exact ⟨_, s.lineIn, _, rfl⟩

/-! ## Access events -/

theorem step_of_hostRead {s : State} {off width : Nat} {rest : List Event}
    (hi : s.inputs = .hostRead off width :: rest) : step s = hostRead off width { s with inputs := rest } := by
  simp only [step, nextEvent, hi, handleEvent]

theorem step_of_hostWrite {s : State} {off width : Nat} {v : Word} {rest : List Event}
    (hi : s.inputs = .hostWrite off width v :: rest) : step s = hostWrite off width v { s with inputs := rest } := by
  simp only [step, nextEvent, hi, handleEvent]

/-- A 32-bit read event at a register's offset answers the register's value. -/
theorem step_of_regRead {s : State} {r : Reg} {rest : List Event} (hr : s.rstN = true)
    (hi : s.inputs = .hostRead (regOffset r) 4 :: rest) :
    step s = .next { s with inputs := rest, resp := .data (readReg r s) } :=
  (step_of_hostRead hi).trans (hostRead_reg (s := { s with inputs := rest }) hr)

/-- A 32-bit write event at a register's offset is the register's write. -/
theorem step_of_regWrite {s : State} {r : Reg} {v : Word} {rest : List Event} (hr : s.rstN = true) (hc : r ≠ .cmd)
    (hi : s.inputs = .hostWrite (regOffset r) 4 v :: rest) :
    step s = .next (writeReg r v { s with inputs := rest, resp := .ack }) :=
  (step_of_hostWrite hi).trans (hostWrite_reg (s := { s with inputs := rest }) hr hc v)

/-! ## Steps -/

/-- What a step that is no reset can do. Only the registers and what is in flight are told; the pin, the divider, the
bus's answer and the outside's lists are left open. -/
inductive StepEffect (s : State) : State → Prop
  /-- No register but SEQ changes. -/
  | passes (n : Bool) (d : Nat) (e : Engine) (r : HostResp) (i : List Event) (ls : List Level) (k : Nat) :
      StepEffect s { s with rstN := n, div := d, eng := e, resp := r, inputs := i, lineIn := ls, draws := k }
  | accepts {w : Word} (i : List Event) (hw : writesNext 0x010 w s) (hb : s.status.busy = false) :
      StepEffect s (accept w { s with resp := .ack, inputs := i })
  | drops {w : Word} (i : List Event) (hw : writesNext 0x010 w s) (hb : s.status.busy = true) :
      StepEffect s (dropCommand { s with resp := .ack, inputs := i })
  | writes {r : Reg} {v : Word} (i : List Event) (hw : writesNext (regOffset r) v s) :
      StepEffect s (writeReg r v { s with resp := .ack, inputs := i })
  /-- The commit of the illegal word in flight. -/
  | illegal (d : Nat) (l : Level) (i : List Event) (ls : List Level) (k : Nat) (hb : s.status.busy = true) :
      StepEffect s (commit .illegalCommand
        { s with div := d, eng := { s.eng with swI := l }, inputs := i, lineIn := ls, draws := k })
  /-- The commit of the command `c` in flight. -/
  | commits {d : Nat} {l : Level} {i : List Event} {ls : List Level} {k : Nat} {c : Instr} {e : ErrCode} {u : State}
      (hb : s.status.busy = true) (hc : s.eng.cmd = encode c)
      (hu : CommitWrites { s with div := d, eng := { s.eng with swI := l }, inputs := i, lineIn := ls, draws := k }
        c e u) :
      StepEffect s (commit e u)

theorem writeCmd_effect {s t : State} {w : Word} {i : List Event} (hw : writesNext 0x010 w s)
    (h : writeCmd w { s with resp := .ack, inputs := i } = .next t) : StepEffect s t := by
  rcases writeCmd_cases h with ⟨hb, rfl⟩ | ⟨hb, c, hd, rfl⟩ | ⟨hb, -, rfl⟩
  · exact .drops i hw hb
  · exact .accepts i (eq_encode_of_decode hd ▸ hw) hb
  · exact .accepts i hw hb

theorem clkCycle_effect {s t : State} {i : List Event} (h : clkCycle { s with inputs := i } = .next t) :
    StepEffect s t := by
  rcases clkCycle_cases h with ⟨-, rfl⟩ | ⟨-, -, h⟩ | ⟨-, -, rfl⟩
  · exact .passes s.rstN s.div s.eng s.resp i s.lineIn s.draws
  · obtain ⟨l, ls, k, hl⟩ := sampleLine_eq { s with inputs := i, div := 0 }
    rw [hl] at h
    rcases engineTick_cases h with ⟨-, rfl⟩ | ⟨hb, c, hd, rfl⟩ | ⟨hb, -, rfl⟩
    · exact .passes s.rstN 0 _ s.resp i ls k
    · have heffect := tickOf_effect c
        { s with inputs := i, div := 0, eng := { s.eng with swI := l }, lineIn := ls, draws := k }
      generalize tickOf c _ = t at heffect ⊢
      cases heffect with
      | counts => exact .passes s.rstN 0 _ s.resp i ls k
      | moves => exact .passes s.rstN 0 _ s.resp i ls k
      | commits hu => exact .commits hb (eq_encode_of_decode hd) hu
    · exact .illegal 0 l i ls k hb
  · exact .passes s.rstN (s.div + 1) s.eng s.resp i s.lineIn s.draws

theorem step_effect {s t : State} (h : step s = .next t) (hr : ¬ resets s) : StepEffect s t := by
  rcases step_cases h with ⟨r, i, rfl⟩ | ⟨i, rfl⟩ | ⟨hreset, -⟩ | ⟨w, rest, -, hi, h⟩ |
    ⟨r, off, v, rest, -, hi, -, hreg, rfl⟩ | ⟨i, -, h⟩
  · exact .passes s.rstN s.div s.eng r i s.lineIn s.draws
  · exact .passes true s.div s.eng s.resp i s.lineIn s.draws
  · exact absurd hreset hr
  · exact writeCmd_effect (by simp [writesNext, hi]) h
  · exact .writes rest (by simp [writesNext, hi, regOffset_of_regAt hreg])
  · exact clkCycle_effect h

/-! ## The words of the commands -/

@[simp] theorem encode_calLoad : encode .calLoad = 0x00000001 := rfl
@[simp] theorem encode_tempComp : encode .tempComp = 0x00000002 := rfl
@[simp] theorem encode_presComp : encode .presComp = 0x00000003 := rfl
@[simp] theorem encode_altComp : encode .altComp = 0x00000004 := rfl
@[simp] theorem encode_swRead : encode .swRead = 0x00000010 := rfl
@[simp] theorem encode_swCheck : encode .swCheck = 0x00000011 := rfl

/-! ## The groups of registers -/

/-- Settles O29: of all a step can do, only CAL_LOAD's commit writes the calibration store. -/
theorem onlyCalLoadWritesTheCalibrationStore : Obligations.OnlyCalLoadWritesTheCalibrationStore := by
  intro s t h hr
  cases step_effect h hr with
  | passes | accepts | drops | writes | illegal => simp
  | commits hb hc hu =>
    cases hu with
    | calLoad hid => exact ⟨fun _ => rfl, fun _ => ⟨hb, hc, hid, rfl, rfl, rfl⟩⟩
    | _ => simp

/-- Settles O30, by what a step can do and what the commit of each command writes. -/
theorem eachRegisterGroupHasItsWriters : Obligations.EachRegisterGroupHasItsWriters := by
  intro s t h hr
  cases step_effect h hr with
  | passes | accepts | drops | illegal => simp
  | @writes r v i hw =>
    refine ⟨fun _ => ⟨_, _, hw⟩, fun hf => .inl ⟨v, ?_⟩, by simp⟩
    cases r with
    | frame0 => exact .inl hw
    | frame1 => exact .inr hw
    | _ => exact absurd rfl hf
  | commits hb hc hu => cases hu <;> simp_all

/-! ## OVR, DONE and ERRCODE -/

section
variable {s t : State} {w : Word} (h : step s = .next t) (hr : s.rstN = true)
include h hr

theorem step_cmdWrite_busy (hw : writesNext 0x010 w s) (hb : s.status.busy = true) :
    t.status = statusDrop s.status := by
  obtain ⟨rest, hi⟩ := List.head?_eq_some_iff.mp hw
  rw [step_of_cmdWrite hr hi] at h
  rcases writeCmd_cases h with ⟨-, rfl⟩ | ⟨hb', -⟩ | ⟨hb', -⟩
  · rfl
  · simp_all
  · simp_all

theorem step_cmdWrite_idle (hw : writesNext 0x010 w s) (hb : s.status.busy = false) :
    t.status = statusAccept w s.status := by
  obtain ⟨rest, hi⟩ := List.head?_eq_some_iff.mp hw
  rw [step_of_cmdWrite hr hi] at h
  rcases writeCmd_cases h with ⟨hb', -⟩ | ⟨-, c, hd, rfl⟩ | ⟨-, -, rfl⟩
  · simp_all
  · simp [← eq_encode_of_decode hd]
  · simp

theorem step_statusWrite (hw : writesNext 0x014 w s) : t.status = statusW1C w s.status := by
  obtain ⟨rest, hi⟩ := List.head?_eq_some_iff.mp hw
  have hwrite := step_of_regWrite (r := .status) hr (by decide) hi
  obtain rfl := Host.Outcome.next.inj (hwrite.symm.trans h)
  rfl

end

/-- Settles O31: only a dropped word sets OVR and only a write to STATUS clears it. -/
theorem overrunSetAndCleared : Obligations.OverrunSetAndCleared := by
  intro s t h hreset
  refine ⟨?_, fun hr hb ⟨w, hw⟩ => by simp [step_cmdWrite_busy h hr hw hb], ?_,
    fun hr ⟨w, hw, h2⟩ => by simp [step_statusWrite h hr hw, h2]⟩
  · cases step_effect h hreset with
    | passes | accepts | illegal => simp_all
    | drops i hw hb => exact fun _ _ => ⟨hb, _, hw⟩
    | @writes r v i hw => by_cases hst : r = .status <;> simp_all
    | commits hb hc hu => cases hu <;> simp_all
  · cases step_effect h hreset with
    | passes | accepts | drops | illegal => simp_all
    | @writes r v i hw =>
      by_cases hst : r = .status
      · subst hst
        exact fun h1 h2 => ⟨v, hw, by simpa [h1] using h2⟩
      · simp_all
    | commits hb hc hu => cases hu <;> simp_all

/-- Settles O32: only a commit sets DONE, and only an acceptance or a write to STATUS clears it. -/
theorem doneSetAndCleared : Obligations.DoneSetAndCleared := by
  refine ⟨fun s t h hreset => ⟨?_, ?_, fun hr hb ⟨w, hw⟩ => by simp [step_cmdWrite_idle h hr hw hb],
    fun hr ⟨w, hw, h1⟩ => by simp [step_statusWrite h hr hw, h1],
    fun hr ⟨w, hw, h1⟩ => by rw [step_statusWrite h hr hw, statusW1C_done, h1, Bool.not_false, Bool.and_true], ?_⟩,
    fun _ => rfl⟩
  · cases step_effect h hreset with
    | passes | accepts | drops | illegal | writes | commits => simp_all
  · cases step_effect h hreset with
    | passes | accepts | drops | illegal => simp_all
    | @writes r v i hw => by_cases hst : r = .status <;> simp_all
    | commits hb hc hu => simp [hb]
  · cases step_effect h hreset with
    | passes | drops | illegal | commits => simp_all
    | accepts i hw hb => exact fun _ _ => .inl ⟨hb, _, hw⟩
    | @writes r v i hw =>
      by_cases hst : r = .status
      · subst hst
        exact fun h1 h2 => .inr ⟨v, hw, by simpa [h1] using h2⟩
      · simp_all

/-- Settles O33, by what a step can do. -/
theorem errcodeWrittenOnlyAtACommit : Obligations.ErrcodeWrittenOnlyAtACommit := by
  intro s t h hreset
  cases step_effect h hreset with
  | passes | accepts | drops => simp_all
  | @writes r v i hw => by_cases hst : r = .status <;> simp_all
  | illegal _ _ _ _ _ hb => exact fun _ => ⟨hb, rfl, rfl, rfl⟩
  | commits hb => exact fun _ => ⟨hb, rfl, rfl, rfl⟩

end Sys2Proof.Machine
end

section
/-! PROOF. What a tick or the acceptance of each command leaves unchanged (10_state.md R65, 60_exceptions.md R196). -/

namespace Sys2Proof.Machine

/-! ## The window by groups of registers (10_state.md R65) -/

/-! The offsets of the groups that only commands write. -/

def coefOffsets : List Nat := [0x040, 0x044, 0x048, 0x04C, 0x050, 0x054, 0x058, 0x05C, 0x060, 0x064, 0x068]
def tempOffsets : List Nat := [0x080, 0x084, 0x088, 0x08C]
def presOffsets : List Nat := [0x090, 0x094, 0x098, 0x09C]
def altOffsets : List Nat := [0x0A0, 0x0A4]
def frameOffsets : List Nat := [0x0C0, 0x0C4]
def wireOffsets : List Nat := [0x0C8, 0x0CC, 0x0D0, 0x0D4, 0x0D8, 0x0DC, 0x0E0]

/-- `s` and `t` agree on the registers that the offset `off` can read, STATUS and SEQ apart. -/
structure SameGroup (off : Nat) (s t : State) : Prop where
  par : t.par = s.par
  host : t.host = s.host
  coef : off ∈ coefOffsets → t.coef = s.coef
  temp : off ∈ tempOffsets → t.temp = s.temp
  pres : off ∈ presOffsets → t.pres = s.pres
  alt : off ∈ altOffsets → t.alt = s.alt
  frame : off ∈ frameOffsets → t.frame = s.frame
  wire : off ∈ wireOffsets → t.swsum = s.swsum ∧ t.sw = s.sw

theorem SameGroup.readReg {r : Reg} {s t : State} (h : SameGroup (regOffset r) s t) (hst : r ≠ .status)
    (hseq : r ≠ .seq) : readReg r t = readReg r s := by
  obtain ⟨hpar, hhost, hcoef, htemp, hpres, halt, hframe, hwire⟩ := h
  cases r <;> simp_all [Machine.readReg, regOffset, coefOffsets, tempOffsets, presOffsets, altOffsets, frameOffsets,
    wireOffsets]

theorem SameGroup.readOffset {off : Nat} {s t : State} (h : SameGroup off s t) (hst : off ≠ 0x014)
    (hseq : off ≠ 0x018) : readOffset off t = readOffset off s := by
  unfold Machine.readOffset
  cases hreg : regAt off with
  | none => rfl
  | some r =>
    obtain rfl := regOffset_of_regAt hreg
    exact h.readReg (by rintro rfl; exact hst rfl) (by rintro rfl; exact hseq rfl)

/-! ## Commits -/

/-- A commit writes the groups its command names. -/
theorem CommitWrites.sameGroup {s u : State} {i : Instr} {e : ErrCode} (h : CommitWrites s i e u) {off : Nat}
    (hoff : off ∉ writtenOffsets i) : SameGroup off s u := by
  have hsame (s : State) : SameGroup off s s := by constructor <;> simp
  cases h with
  | fails => exact hsame s
  | nop => exact hsame s
  | calLoad => exact { hsame s with coef := fun hm => by simp_all [writtenOffsets, coefOffsets] }
  | tempComp => exact { hsame s with temp := fun hm => by simp_all [writtenOffsets, tempOffsets] }
  | presComp =>
    exact { hsame s with
      temp := fun hm => by simp_all [writtenOffsets, tempOffsets]
      pres := fun hm => by simp_all [writtenOffsets, presOffsets] }
  | altComp =>
    exact { hsame s with
      temp := fun hm => by simp_all [writtenOffsets, tempOffsets]
      pres := fun hm => by simp_all [writtenOffsets, presOffsets]
      alt := fun hm => by simp_all [writtenOffsets, altOffsets] }
  | timeout => exact { hsame s with }
  | swFinish =>
    exact { hsame s with
      frame := fun hm => by simp_all [writtenOffsets, frameOffsets]
      wire := fun hm => by simp_all [writtenOffsets, wireOffsets] }
  | swCheck => exact { hsame s with wire := fun hm => by simp_all [writtenOffsets, wireOffsets] }

/-- STATUS and SEQ change at every command. -/
theorem ne_of_not_mem_writtenOffsets {i : Instr} {off : Nat} (h : off ∉ writtenOffsets i) :
    off ≠ 0x014 ∧ off ≠ 0x018 := by
  constructor <;> (rintro rfl; cases i <;> exact h (by decide))

/-! ## Ticks and acceptance -/

/-- Acceptance moves the engine, and the bit count and the shift register for SW_READ only. -/
theorem accept_encode_eng (i : Instr) (s : State) :
    (accept (encode i) s).eng.swI = s.eng.swI ∧
      (i ≠ .swRead →
        (accept (encode i) s).eng.bitidx = s.eng.bitidx ∧ (accept (encode i) s).eng.shreg = s.eng.shreg) := by
  by_cases hi : i = .swRead
  · subst hi
    exact ⟨rfl, fun hne => absurd rfl hne⟩
  · have hw : encode i ≠ 0x00000010 := fun hw => hi (encode_eq_swRead_iff.mp hw)
    rw [accept_eng_of_ne hw]
    exact ⟨rfl, fun _ => ⟨rfl, rfl⟩⟩

/-- Settles O28, by what the acceptance writes, and by what a tick can do and the commit of each command writes. -/
theorem commandFrames : Obligations.CommandFrames := by
  intro i s t h
  have hread (u : State) (hu : ∀ off, off ∉ writtenOffsets i → SameGroup off s u) (off : Nat)
      (hoff : off ∉ writtenOffsets i) : readOffset off u = readOffset off s := by
    obtain ⟨hst, hseq⟩ := ne_of_not_mem_writtenOffsets hoff
    exact (hu off hoff).readOffset hst hseq
  cases hb : s.status.busy with
  | false =>
    obtain rfl := Host.Outcome.next.inj ((exec_of_idle hb i).symm.trans h)
    obtain ⟨hswI, hkept⟩ := accept_encode_eng i s
    have hgroup := hread (accept (encode i) s) fun off _ => by constructor <;> simp
    simpa [hswI] using ⟨hkept, hgroup⟩
  | true =>
    obtain rfl := Host.Outcome.next.inj ((exec_of_busy hb i).symm.trans h)
    have heffect := tickOf_effect i s
    generalize tickOf i s = t at heffect ⊢
    cases heffect with
    | counts =>
      have hgroup := hread (count s) fun off _ => by constructor <;> simp
      simpa using hgroup
    | moves q k b hi =>
      have hgroup := hread { s with eng := { s.eng with seq := q, cnt := 0, bitidx := k, shreg := b } }
        fun off _ => by constructor <;> simp
      simpa [hi] using hgroup
    | @commits e u hu =>
      have hgroup := hread (commit e u) fun off hoff => { hu.sameGroup hoff with }
      cases hu <;> simpa using hgroup

end Sys2Proof.Machine
end

section
/-! PROOF. What the registers of the window read and store (10_state.md R20 to R58), and the reset values (R67). -/

namespace Sys2Proof.Machine

/-! ## Fields of a word as numbers -/

/-- A field above another counts in units of the lower field's range. -/
theorem toNat_append_eq_add {m n : Nat} (x : BitVec m) (y : BitVec n) :
    (x ++ y).toNat = x.toNat * 2 ^ n + y.toNat := by
  rw [BitVec.toNat_append, ← Nat.shiftLeft_add_eq_or_of_lt y.isLt, Nat.shiftLeft_eq]

theorem hiWord_append_loWord (x : F64) : hiWord x ++ loWord x = x := BitVec.extractLsb'_append_extractLsb'

theorem errBits_toNat (e : ErrCode) : (errBits e).toNat = errorNumber e := by cases e <;> rfl

theorem seqBits_toNat (q : Seq) : (seqBits q).toNat = seqNumber q := by cases q <;> rfl

theorem unitBits_toNat (u : TempUnit) : (unitBits u).toNat = unitNumber u := by cases u <;> rfl

theorem statusWord_toNat (f : Status) :
    (statusWord f).toNat =
      f.busy.toNat + 2 * f.done.toNat + 4 * f.ovr.toNat + 8 * f.calValid.toNat + 256 * errorNumber f.errcode +
        65536 * f.lastop.toNat := by
  simp only [statusWord, toNat_append_eq_add, BitVec.toNat_ofBool, errBits_toNat, BitVec.toNat_ofNat]
  omega

theorem seqWord_toNat (e : Engine) :
    (seqWord e).toNat = seqNumber e.seq + 16 * seqNumber e.endstate + 256 * (e.bitidx % 64) := by
  simp only [seqWord, toNat_append_eq_add, seqBits_toNat, BitVec.toNat_ofNat]
  omega

theorem ctrlWord_toNat (g : HostRegs) : (ctrlWord g).toNat = g.ie.toNat + 2 * unitNumber g.unit := by
  simp only [ctrlWord, toNat_append_eq_add, BitVec.toNat_ofBool, unitBits_toNat, BitVec.toNat_ofNat]
  omega

theorem timingWord_toNat (g : HostRegs) :
    (timingWord g).toNat = g.startMs.toNat + 256 * g.releaseUs.toNat + 65536 * g.waitLimit.toNat := by
  simp only [timingWord, toNat_append_eq_add]
  omega

theorem devinfoWord_toNat (p : Params) :
    (devinfoWord p).toNat = p.expectedId.toNat + 256 * p.tempCmd.toNat + 65536 * p.pressCmdBase.toNat := by
  simp only [devinfoWord, toNat_append_eq_add, BitVec.toNat_ofNat]
  omega

/-- 10_state.md R30 to R35. -/
theorem statusWord_fields (f : Status) :
    let v := (statusWord f).toNat
    v % 2 = f.busy.toNat ∧ v / 2 % 2 = f.done.toNat ∧ v / 4 % 2 = f.ovr.toNat ∧ v / 8 % 2 = f.calValid.toNat ∧
      v / 16 % 16 = 0 ∧ v / 256 % 16 = errorNumber f.errcode ∧ v / 4096 % 16 = 0 ∧ v / 65536 % 256 = f.lastop.toNat ∧
      v / 16777216 = 0 := by
  have hbusy := f.busy.toNat_le
  have hdone := f.done.toNat_le
  have hovr := f.ovr.toNat_le
  have hcal := f.calValid.toNat_le
  have herr : errorNumber f.errcode < 16 := errBits_toNat f.errcode ▸ (errBits f.errcode).isLt
  have hlast := f.lastop.isLt
  rw [statusWord_toNat]
  omega

/-- 10_state.md R36. -/
theorem seqWord_fields (e : Engine) :
    let v := (seqWord e).toNat
    v % 16 = seqNumber e.seq ∧ v / 16 % 16 = seqNumber e.endstate ∧ (e.bitidx ≤ 40 → v / 256 % 64 = e.bitidx) ∧
      v / 16384 = 0 := by
  have hseq : seqNumber e.seq < 16 := seqBits_toNat e.seq ▸ (seqBits e.seq).isLt
  have hend : seqNumber e.endstate < 16 := seqBits_toNat e.endstate ▸ (seqBits e.endstate).isLt
  rw [seqWord_toNat]
  omega

/-- 10_state.md R43: a coefficient extended by its sign. -/
theorem toInt_sext (x : BitVec 16) : (x.signExtend 32).toInt = x.toInt := BitVec.toInt_signExtend_of_le (by decide)

/-- Settles O36, by the number each register's word stands for. -/
theorem registersReadTheirFields : Obligations.RegistersReadTheirFields := fun s =>
  ⟨statusWord_fields s.status, seqWord_fields s.eng, ctrlWord_toNat s.host, timingWord_toNat s.host,
    devinfoWord_toNat s.par, 
    by simp [readReg, toInt_sext, hiWord_append_loWord, unitBits_toNat, BitVec.toNat_setWidth_of_le,
      -BitVec.toNat_setWidth]⟩

/-! ## MODEINFO (R37) -/

theorem modeinfoWord_toNat (p : Params) (m : Byte) :
    (modeinfoWord p m).toNat =
      (modeValid m).toNat + 256 * (modeDelayMs m).toNat + 65536 * (modePcmd p m).toNat + 16777216 * 5 := by
  simp only [modeinfoWord, toNat_append_eq_add, BitVec.toNat_ofBool, BitVec.toNat_ofNat]
  omega

theorem modeDelayMs_toNat (m : Byte) :
    (modeDelayMs m).toNat =
      if m.toNat = 0 then 5 else if m.toNat = 1 then 8 else if m.toNat = 2 then 14
      else if m.toNat = 3 then 26 else 0 := by
  simp only [modeDelayMs, ← BitVec.toNat_inj, apply_ite BitVec.toNat]
  rfl

theorem modeValid_toNat (m : Byte) : (modeValid m).toNat = if m.toNat ≤ 3 then 1 else 0 := by
  unfold modeValid
  split <;> simp_all

/-- Two of the mode's bits reach PCMD, which a mode below 4 fits. -/
theorem modePcmd_toNat (p : Params) (m : Byte) :
    (modePcmd p m).toNat = if m.toNat ≤ 3 then (p.pressCmdBase.toNat + m.toNat * 64) % 256 else 0 := by
  unfold modePcmd modeValid
  by_cases h : m.toNat ≤ 3
  · have hshift : m.toNat <<< 6 % 2 ^ 8 = m.toNat * 64 := by rw [Nat.shiftLeft_eq]; omega
    rw [if_pos (decide_eq_true h), if_pos h, BitVec.toNat_add, BitVec.toNat_shiftLeft, hshift]
  · rw [if_neg (by simpa using h), if_neg h]
    rfl

/-- Settles O42: MODEINFO's word is the sum of its fields. -/
theorem modeInfoReportsTheConstants : Obligations.ModeInfoReportsTheConstants := by
  intro s
  have hvalid := (modeValid s.host.mode).toNat_le
  have hdelay := (modeDelayMs s.host.mode).isLt
  have hpcmd := (modePcmd s.par s.host.mode).isLt
  have hword : (readReg .modeinfo s).toNat = _ := modeinfoWord_toNat s.par s.host.mode
  dsimp only
  rw [hword, ← modeValid_toNat, ← modeDelayMs_toNat, ← modePcmd_toNat]
  have hms := modeDelayMs_toNat s.host.mode
  generalize modeDelayMs s.host.mode = d at *
  split_ifs at hms <;> omega

/-! ## Legal values (R23, R26, R27) -/

theorem extractLsb'_toNat (v : Word) (a n : Nat) : (v.extractLsb' a n).toNat = v.toNat / 2 ^ a % 2 ^ n := by
  rw [BitVec.extractLsb'_toNat, Nat.shiftRight_eq_div_pow]

theorem warlUnit_of_toNat (old : TempUnit) (v : BitVec 2) :
    (v.toNat = 0 → warlUnit old v = .celsius) ∧ (v.toNat = 1 → warlUnit old v = .fahrenheit) ∧
      (v.toNat = 2 → warlUnit old v = .kelvin) ∧ (v.toNat = 3 → warlUnit old v = old) := by
  revert v
  cases old <;> decide

/-- Settles O41, field by field. -/
theorem warlFieldsStoreLegalValues : Obligations.WarlFieldsStoreLegalValues := by
  refine ⟨fun s v => ⟨?_, ?_, ?_, ?_⟩, fun s v => ⟨rfl, ?_⟩⟩
  · exact (warlStartMs_toNat _).trans (by rw [extractLsb'_toNat]; simp)
  · exact (warlReleaseUs_toNat _).trans (by rw [extractLsb'_toNat]; simp)
  · have hv := v.isLt
    exact (extractLsb'_toNat v 16 16).trans (by omega)
  · exact (timingWord_toNat _).trans (by omega)
  · obtain ⟨h0, h1, h2, h3⟩ := warlUnit_of_toNat s.host.unit (v.extractLsb' 1 2)
    rw [extractLsb'_toNat] at h0 h1 h2 h3
    refine ⟨h0, h1, h2, h3, ?_⟩
    have hie := (writeReg .ctrl v s).host.ie.toNat_le
    have hunit : unitNumber (writeReg .ctrl v s).host.unit < 4 :=
      unitBits_toNat (writeReg .ctrl v s).host.unit ▸ BitVec.isLt _
    have hword : (readReg .ctrl (writeReg .ctrl v s)).toNat = _ := ctrlWord_toNat (writeReg .ctrl v s).host
    omega

/-! ## Reset values (R67) and the line port (R64) -/

/-- Settles O3: every value is a field of the reset state, or a register's word of such fields. -/
theorem resetValues : Obligations.ResetValues := by
  intro p
  have hcal (i : Fin 22) : (State.resetOf p).host.calbyte[i.val] = 0 := by simp [State.resetOf, HostRegs.reset]
  have hread (r : Reg) {v : Word} (h : readReg r (State.resetOf p) = v) :
      readOffset (regOffset r) (State.resetOf p) = v := (readOffset_regOffset r _).trans h
  exact ⟨rfl, rfl, rfl, rfl, rfl, rfl, rfl, rfl, rfl, rfl, rfl, rfl, rfl, rfl, rfl, rfl, rfl, rfl, rfl, rfl, rfl, rfl,
    hcal, rfl, rfl, rfl, rfl, rfl, rfl, rfl, rfl, rfl, rfl, rfl, rfl, rfl, rfl, rfl, rfl, rfl, rfl, hread .blkid rfl,
    hread .timing (show timingWord HostRegs.reset = 0x03E81412 by decide),
    hread .seq (show seqWord Engine.reset = 0 by decide), hread .modeinfo rfl, hread .devinfo rfl⟩

/-- Settles O27, state by state of the sequencer. -/
theorem linePortFollowsSeq : Obligations.LinePortFollowsSeq := by
  intro s
  unfold swOe swO
  cases s.eng.seq <;> decide

end Sys2Proof.Machine
end

section
/-! PROOF. Host accesses to the window: which register an event reaches, what a write stores, and what it leaves
(10_state.md R20, R24, R58; 20_memory.md R70, R73). -/

namespace Sys2Proof.Machine

/-- Settles O35: a register is found at its offset. -/
theorem windowReachesEveryRegister : Obligations.WindowReachesEveryRegister := by
  refine ⟨by decide, fun r s rest hr hi => ?_, fun r v s rest hr hc hi => ?_⟩
  · exact step_of_regRead hr hi
  · exact ⟨_, step_of_regWrite hr hc hi, rfl⟩

/-! ## What a write leaves unchanged -/

/-- A write to a register leaves what the others read, but for MODEINFO, which follows MODE (R37). -/
theorem readReg_writeReg_of_ne {r r' : Reg} (v : Word) (s : State) (hne : r' ≠ r)
    (hmode : ¬ (r = .mode ∧ r' = .modeinfo)) : readReg r' (writeReg r v s) = readReg r' s := by
  cases r' with
  | ctrl => cases r with
    | ctrl => exact absurd rfl hne
    | _ => rfl
  | mode => cases r with
    | mode => exact absurd rfl hne
    | _ => rfl
  | modeinfo => cases r with
    | mode => exact absurd ⟨rfl, rfl⟩ hmode
    | _ => rfl
  | timing => cases r with
    | timing => exact absurd rfl hne
    | _ => rfl
  | status => exact congrArg statusWord (if_neg hne.symm)
  | calid => cases r with
    | calid => exact absurd rfl hne
    | _ => rfl
  | rawt => cases r with
    | rawt => exact absurd rfl hne
    | _ => rfl
  | rawp => cases r with
    | rawp => exact absurd rfl hne
    | _ => rfl
  | sealevelLo => cases r with
    | sealevelLo => exact absurd rfl hne
    | sealevelHi => exact loWord_append _ _
    | _ => rfl
  | sealevelHi => cases r with
    | sealevelHi => exact absurd rfl hne
    | sealevelLo => exact hiWord_append _ _
    | _ => rfl
  | frame0 => cases r with
    | frame0 => exact absurd rfl hne
    | _ => rfl
  | frame1 => cases r with
    | frame1 => exact absurd rfl hne
    | _ => rfl
  | calbyte i => cases r with
    | calbyte j =>
      have hij : j.val ≠ i.val := fun h => hne (congrArg Reg.calbyte (Fin.ext h.symm))
      exact congrArg (BitVec.setWidth 32) (Vector.getElem_set_ne j.isLt i.isLt hij)
    | _ => rfl
  | _ => rfl

/-- The low bits of a written word, read back with zeros above them. -/
theorem toNat_zext_low {n : Nat} (h : n ≤ 32) (v : Word) :
    ((v.extractLsb' 0 n).setWidth 32).toNat = v.toNat % 2 ^ n := by
  rw [BitVec.toNat_setWidth_of_le h, extractLsb'_toNat, pow_zero, Nat.div_one]

/-- Settles O37: each field holds the low bits of the word written, and the fields are apart. -/
theorem writtenFieldsReadBack : Obligations.WrittenFieldsReadBack := by
  refine ⟨fun v s => ⟨toNat_zext_low (by decide) v, toNat_zext_low (by decide) v, toNat_zext_low (by decide) v,
    toNat_zext_low (by decide) v, loWord_append _ _, hiWord_append _ _, rfl, toNat_zext_low (by decide) v,
    fun i => ?_⟩, fun r r' v s hne hmode => readReg_writeReg_of_ne v s hne hmode, fun _ _ _ => rfl⟩
  have hset : (writeReg (.calbyte i) v s).host.calbyte[i.val] = v.extractLsb' 0 8 := Vector.getElem_set_self i.isLt
  exact (congrArg (fun b : Byte => (b.setWidth 32).toNat) hset).trans (toNat_zext_low (by decide) v)

/-- An offset that is no register's finds none. -/
theorem regAt_eq_none {off : Nat} (h : ∀ r : Reg, regOffset r ≠ off) : regAt off = none := by
  cases hreg : regAt off with
  | none => rfl
  | some r => exact absurd (regOffset_of_regAt hreg) (h r)

/-- Settles O40: no register is found at an unlisted offset, and a read-only register has no write rule. -/
theorem unlistedAndReadOnlyIgnoreWrites : Obligations.UnlistedAndReadOnlyIgnoreWrites := by
  refine ⟨fun s rest off v hr hoff halign hnone => ?_, fun r v s hreg => ?_, fun v s => ⟨_, _, rfl⟩⟩
  · have hwindow : inWindow off = true := decide_eq_true hoff
    have hlegal : accessLegal off 4 = true := by simp [accessLegal, halign]
    have hreg := regAt_eq_none hnone
    refine ⟨fun hi => ?_, fun hi => ⟨{ s with inputs := rest, resp := .ack }, ?_, rfl⟩⟩
    · simp only [step_of_hostRead hi, hostRead, hwindow, hr, hlegal, readOffset, hreg, if_true]
    · simp only [step_of_hostWrite hi, hostWrite, hwindow, hr, hlegal, hreg, if_true]
  · fin_cases hreg <;> rfl

end Sys2Proof.Machine
end

section
/-! PROOF. A host write does not reach the command in flight (10_state.md R63, 60_exceptions.md R209). What a host write
can change is gathered in one edit of the state, and a tick is run on an edited state. -/

namespace Sys2Proof.Machine

theorem engineTick_of_error {s : State} {e : DecodeError} (hb : s.status.busy = true)
    (hd : decode s.eng.cmd = .error e) : engineTick s = .next (illegalTick s) := by
  simp only [engineTick, hb, hd, if_true]

/-- A change to what a host write can change: its registers, the frame, the two bits of STATUS, the bus's answer, and
the events lined up. -/
structure HostEdit where
  host : HostRegs → HostRegs
  frame : Frame → Frame
  done : Bool → Bool
  ovr : Bool → Bool
  resp : HostResp → HostResp
  inputs : List Event → List Event

namespace HostEdit

def apply (E : HostEdit) (s : State) : State :=
  { s with
    host := E.host s.host
    frame := E.frame s.frame
    status := { s.status with done := E.done s.status.done, ovr := E.ovr s.status.ovr }
    resp := E.resp s.resp
    inputs := E.inputs s.inputs }

/-- After the tick of the command `i` the edit still stands, but for DONE, which a commit sets, and the frame, which
SW_READ's commit writes. -/
inductive After (E : HostEdit) (i : Instr) : HostEdit → Prop
  | same : After E i E
  | commit : After E i { E with done := id }
  | frame (hi : i = .swRead) : After E i { E with done := id, frame := id }

/-- `t'` is `t` with what is left of the edit after a tick of `i`. -/
def Follows (E : HostEdit) (i : Instr) (t' t : State) : Prop := ∃ E', E.After i E' ∧ t' = E'.apply t

section
variable (E : HostEdit) (s : State)

@[simp] theorem apply_par : (E.apply s).par = s.par := rfl
@[simp] theorem apply_eng : (E.apply s).eng = s.eng := rfl
@[simp] theorem apply_busy : (E.apply s).status.busy = s.status.busy := rfl

theorem follows_count (i : Instr) : E.Follows i (count (E.apply s)) (count s) := ⟨E, .same, rfl⟩

theorem follows_goto (i : Instr) (q : Seq) : E.Follows i (goto q (E.apply s)) (goto q s) := ⟨E, .same, rfl⟩

theorem follows_raise (i : Instr) (e : ErrCode) : E.Follows i (raise e (E.apply s)) (raise e s) := ⟨_, .commit, rfl⟩

/-- Both sides take the same branch, since no condition of a tick reads what the edit changes. -/
theorem follows_ite {E : HostEdit} {i : Instr} {c : Prop} (d d' : Decidable c) {t' u' t u : State}
    (ht : E.Follows i t' t) (hu : E.Follows i u' u) : E.Follows i (@ite _ c d t' u') (@ite _ c d' t u) := by
  by_cases hc : c
  · rwa [if_pos hc, if_pos hc]
  · rwa [if_neg hc, if_neg hc]

/-! ## COMPUTE commands -/

theorem follows_computeTick {i : Instr} {rule : State → State} (h : E.Follows i (rule (E.apply s)) (rule s)) :
    E.Follows i (computeTick rule (E.apply s)) (computeTick rule s) :=
  follows_ite _ _ h (E.follows_count s i)

theorem follows_calLoadCommit : E.Follows .calLoad (calLoadCommit (E.apply s)) (calLoadCommit s) := by
  unfold calLoadCommit
  simp only [apply_par, apply_eng]
  split
  · exact E.follows_raise s _ _
  · exact ⟨_, .commit, rfl⟩

theorem follows_tempCompCommit : E.Follows .tempComp (tempCompCommit (E.apply s)) (tempCompCommit s) := by
  unfold tempCompCommit
  simp only [apply_eng]
  split
  · exact E.follows_raise s _ _
  · exact ⟨_, .commit, rfl⟩

theorem follows_presCompCommit : E.Follows .presComp (presCompCommit (E.apply s)) (presCompCommit s) := by
  unfold presCompCommit
  simp only [apply_eng]
  split
  · exact E.follows_raise s _ _
  · exact ⟨_, .commit, rfl⟩

theorem follows_altCompCommit : E.Follows .altComp (altCompCommit (E.apply s)) (altCompCommit s) := by
  unfold altCompCommit
  simp only [apply_eng]
  split
  · exact E.follows_raise s _ _
  · exact ⟨_, .commit, rfl⟩

theorem checkAndConvert_apply (f0 : Word) (f4 : Byte) :
    checkAndConvert f0 f4 (E.apply s) = { E with done := id }.apply (checkAndConvert f0 f4 s) := by
  unfold checkAndConvert
  split <;> rfl

theorem follows_swCheckCommit : E.Follows .swCheck (swCheckCommit (E.apply s)) (swCheckCommit s) :=
  ⟨_, .commit, E.checkAndConvert_apply s _ _⟩

/-! ## SW_READ -/

theorem follows_swFinish : E.Follows .swRead (swFinish (E.apply s)) (swFinish s) :=
  ⟨_, .frame rfl, { E with frame := id }.checkAndConvert_apply
    { s with
      frame := { frame0 := shregFrame0 s.eng.shreg, frame1 := shregF4 s.eng.shreg }
      eng := { s.eng with endstate := .swFinish } } _ _⟩

theorem follows_fixedPhase (n : Nat) (q : Seq) :
    E.Follows .swRead (fixedPhase n q (E.apply s)) (fixedPhase n q s) :=
  follows_ite _ _ (E.follows_goto s _ q) (E.follows_count s _)

theorem follows_levelWait {v : Level} {advance : State → State}
    (h : E.Follows .swRead (advance (E.apply s)) (advance s)) :
    E.Follows .swRead (levelWait v advance (E.apply s)) (levelWait v advance s) :=
  follows_ite _ _ h (follows_ite _ _ ⟨_, .commit, rfl⟩ (E.follows_count s _))

theorem follows_bitDelayTick : E.Follows .swRead (bitDelayTick (E.apply s)) (bitDelayTick s) :=
  follows_ite _ _ ⟨E, .same, rfl⟩ (E.follows_count s _)

theorem follows_swReadTick : E.Follows .swRead (swReadTick (E.apply s)) (swReadTick s) := by
  unfold swReadTick
  simp only [apply_eng]
  cases s.eng.seq with
  | prep => exact E.follows_goto s _ _
  | startLow => exact E.follows_fixedPhase s _ _
  | release => exact E.follows_fixedPhase s _ _
  | ackLow => exact E.follows_levelWait s (E.follows_goto s _ _)
  | ackHigh => exact E.follows_levelWait s (E.follows_goto s _ _)
  | bitEdge => exact E.follows_levelWait s (E.follows_goto s _ _)
  | bitDelay => exact E.follows_bitDelayTick s
  | bitRestore => exact E.follows_levelWait s ⟨E, .same, rfl⟩
  | swFinish => exact E.follows_swFinish s
  | idle => exact E.follows_count s _
  | compute => exact E.follows_count s _

theorem follows_tickOf (i : Instr) : E.Follows i (tickOf i (E.apply s)) (tickOf i s) := by
  cases i with
  | nop => exact ⟨_, .commit, rfl⟩
  | calLoad => exact E.follows_computeTick s (E.follows_calLoadCommit s)
  | tempComp => exact E.follows_computeTick s (E.follows_tempCompCommit s)
  | presComp => exact E.follows_computeTick s (E.follows_presCompCommit s)
  | altComp => exact E.follows_computeTick s (E.follows_altCompCommit s)
  | swRead => exact E.follows_swReadTick s
  | swCheck => exact E.follows_computeTick s (E.follows_swCheckCommit s)

/-! ## Ticks and clock cycles -/

/-- A tick of an edited state is an edit of the tick. -/
theorem engineTick_apply :
    ∃ t E' i, engineTick s = .next t ∧ E.After i E' ∧ engineTick (E.apply s) = .next (E'.apply t) ∧
      (i = .swRead → s.status.busy = true ∧ s.eng.cmd = 0x00000010) := by
  cases hb : s.status.busy with
  | false => exact ⟨_, E, .nop, engineTick_of_idle hb, .same, engineTick_of_idle (s := E.apply s) hb, nofun⟩
  | true =>
    cases hd : decode s.eng.cmd with
    | error e =>
      exact ⟨_, _, .nop, engineTick_of_error hb hd, .commit, engineTick_of_error (s := E.apply s) hb hd, nofun⟩
    | ok i =>
      obtain ⟨E', hE, ht⟩ := E.follows_tickOf s i
      refine ⟨tickOf i s, E', i, ?_, hE, ?_, fun hi => ⟨rfl, (eq_encode_of_decode hd).trans (congrArg encode hi)⟩⟩
      · rw [engineTick_of_decode hb hd, exec_of_busy hb]
      · rw [engineTick_of_decode (s := E.apply s) hb hd, exec_of_busy (s := E.apply s) hb, ht]

/-- The edit leaves what the tick of `s` may write: DONE, and the frame where a SW_READ is in flight. -/
structure Apart : Prop where
  done : E.done = id
  frame : s.status.busy = true → s.eng.cmd = 0x00000010 → E.frame = id

variable {E s}

/-- Such an edit can be made before the tick or after it. -/
theorem engineTick_apply_of_apart (hE : E.Apart s) {t : State} (ht : engineTick s = .next t) :
    engineTick (E.apply s) = .next (E.apply t) := by
  obtain ⟨u, E', i, hu, hafter, hu', hi⟩ := E.engineTick_apply s
  obtain rfl := Host.Outcome.next.inj (ht.symm.trans hu)
  have hdone : { E with done := id } = E := by rw [← hE.done]
  cases hafter with
  | same => exact hu'
  | commit => rwa [hdone] at hu'
  | frame h =>
    obtain ⟨hb, hcmd⟩ := hi h
    have hframe : { E with done := id, frame := id } = E := by rw [← hE.frame hb hcmd, ← hE.done]
    rwa [hframe] at hu'

theorem sampleLine_apply : sampleLine (E.apply s) = E.apply (sampleLine s) := by
  have hline : (E.apply s).lineIn = s.lineIn := rfl
  unfold sampleLine
  rw [hline]
  split <;> rfl

theorem clkCycle_apply_of_apart (hE : E.Apart s) {t : State} (ht : clkCycle s = .next t) :
    clkCycle (E.apply s) = .next (E.apply t) := by
  have hsample : sampleLine { E.apply s with div := 0 } = E.apply (sampleLine { s with div := 0 }) :=
    sampleLine_apply (s := { s with div := 0 })
  have hapart : E.Apart (sampleLine { s with div := 0 }) := ⟨hE.done, by simpa using hE.frame⟩
  rcases clkCycle_cases ht with ⟨hr, rfl⟩ | ⟨hr, hd, ht⟩ | ⟨hr, hd, rfl⟩
  · exact if_neg (by simp [apply, hr])
  · rw [← engineTick_apply_of_apart hapart ht, ← hsample]
    exact (if_pos hr).trans (if_pos hd)
  · exact (if_pos hr).trans (if_neg hd)

end

end HostEdit

/-! ## Host writes as edits -/

/-- A write of `v` to `r`. -/
def writeEdit (r : Reg) (v : Word) : HostEdit :=
  { host := writeHostRegs r v
    frame := writeFrame r v
    done := fun d => if r = .status then d && !v.getLsbD 1 else d
    ovr := fun o => if r = .status then o && !v.getLsbD 2 else o
    resp := id
    inputs := id }

theorem writeReg_eq_apply (r : Reg) (v : Word) (s : State) : writeReg r v s = (writeEdit r v).apply s := by
  unfold writeReg HostEdit.apply writeEdit statusW1C
  by_cases h : r = .status <;> simp [h]

/-- The host's write event, answered, with `rest` lined up after it. -/
def writeEventEdit (r : Reg) (v : Word) (rest : List Event) : HostEdit :=
  { writeEdit r v with resp := fun _ => .ack, inputs := fun _ => rest }

theorem writeReg_eq_apply_event (r : Reg) (v : Word) (rest : List Event) (s : State) :
    writeReg r v { s with inputs := rest, resp := .ack } = (writeEventEdit r v rest).apply s := by
  rw [writeReg_eq_apply]
  rfl

theorem writeFrame_eq_id {r : Reg} (v : Word) (h : ¬ (r = .frame0 ∨ r = .frame1)) : writeFrame r v = id := by
  cases r with
  | frame0 => exact absurd (.inl rfl) h
  | frame1 => exact absurd (.inr rfl) h
  | _ => rfl

theorem writeEdit_apart {r : Reg} {s : State} (v : Word) (hst : r ≠ .status)
    (hframe : (r = .frame0 ∨ r = .frame1) → s.status.busy = true → s.eng.cmd ≠ 0x00000010) :
    (writeEdit r v).Apart s where
  done := funext fun _ => if_neg hst
  frame := fun hb hcmd => writeFrame_eq_id v fun hr => hframe hr hb hcmd

/-- A clock cycle moves neither the reset pin nor the events lined up. -/
theorem clkCycle_rstN_inputs {s t : State} (h : clkCycle s = .next t) : t.rstN = s.rstN ∧ t.inputs = s.inputs := by
  rcases clkCycle_cases h with ⟨-, rfl⟩ | ⟨-, -, h⟩ | ⟨-, -, rfl⟩
  · exact ⟨rfl, rfl⟩
  · rcases engineTick_cases h with ⟨-, rfl⟩ | ⟨hb, i, -, rfl⟩ | ⟨-, -, rfl⟩
    · simp
    · obtain ⟨-, hr, -, -, -, hi, -⟩ := commandFrames i _ _ (exec_of_busy hb i)
      simpa using And.intro hr hi
    · simp
  · exact ⟨rfl, rfl⟩

theorem clkCycle_next (s : State) : ∃ t, clkCycle s = .next t := by
  unfold clkCycle
  split
  · split
    · exact engineTick_next _
    · exact ⟨_, rfl⟩
  · exact ⟨_, rfl⟩

/-- The write event and a clock cycle, in either order. -/
theorem regWrite_clk_comm {r : Reg} (v : Word) {s : State} (rest : List Event) (hr : s.rstN = true) (hc : r ≠ .cmd)
    (hE : (writeEdit r v).Apart s) :
    ∃ a b t,
      step { s with inputs := .hostWrite (regOffset r) 4 v :: .clk :: rest } = .next a ∧ step a = .next t ∧
      step { s with inputs := .clk :: .hostWrite (regOffset r) 4 v :: rest } = .next b ∧ step b = .next t := by
  obtain ⟨b, hb⟩ := clkCycle_next { s with inputs := .hostWrite (regOffset r) 4 v :: rest }
  obtain ⟨hbr, hbi⟩ := clkCycle_rstN_inputs hb
  have hapart : (writeEventEdit r v rest).Apart { s with inputs := .hostWrite (regOffset r) 4 v :: rest } :=
    ⟨hE.done, hE.frame⟩
  have hafter := HostEdit.clkCycle_apply_of_apart hapart hb
  refine ⟨_, b, (writeEventEdit r v rest).apply b, step_of_regWrite hr hc rfl, ?_,
    (step_of_clockCycle (.inl rfl)).trans hb, ?_⟩
  · rw [step_of_clockCycle (.inl rfl), ← hafter, ← writeReg_eq_apply_event]
    rfl
  · rw [step_of_regWrite (hbr.trans hr) hc hbi, writeReg_eq_apply_event]

/-- Settles O54: a tick of the state after the write is the tick with the write's edit, or what is left of it. -/
theorem hostWritesDoNotReachTheCommand : Obligations.HostWritesDoNotReachTheCommand := by
  refine ⟨fun r v s hb hst hframe => ?_, fun r v s hb => ?_, fun r v s rest hr hc hst hframe =>
    regWrite_clk_comm v rest hr hc (writeEdit_apart v hst hframe)⟩
  · obtain ⟨t, ht⟩ := engineTick_next s
    rw [writeReg_eq_apply]
    refine ⟨t, ht, ?_⟩
    rw [writeReg_eq_apply]
    exact HostEdit.engineTick_apply_of_apart (writeEdit_apart v hst fun hr _ => hframe hr) ht
  · obtain ⟨t, E', i, ht, -, ht', -⟩ := (writeEdit r v).engineTick_apply s
    rw [writeReg_eq_apply]
    exact ⟨t, _, ht, ht', rfl, rfl, rfl, rfl, rfl, rfl, rfl, rfl, rfl, rfl, rfl⟩

end Sys2Proof.Machine
end

section
/-! PROOF. Host accesses to the window as steps: the error response, reads and WAIT, repeated writes, and which events
stop the machine (20_memory.md R70, R71, R73; 30_encoding.md R96; 43_control.md R181). -/

namespace Sys2Proof.Machine

theorem inWindow_eq_true_iff {off : Nat} : inWindow off = true ↔ off < 4096 := decide_eq_true_iff

theorem accessLegal_eq_false {off width : Nat} (h : width ≠ 4 ∨ off % 4 ≠ 0) : accessLegal off width = false := by
  rcases h with h | h <;> simp [accessLegal, h]

/-! ## Narrow and misaligned accesses (R71) -/

/-- Settles O38: the access passes the window and the reset pin and fails the check of its width and alignment. -/
theorem narrowOrMisalignedAccessErrors : Obligations.NarrowOrMisalignedAccessErrors := by
  refine ⟨fun s rest off width v hr hoff hbad hi => ?_, fun s rest off width hr hoff hbad hi => ?_⟩
  · rw [step_of_hostWrite hi]
    simp [hostWrite, inWindow_eq_true_iff.mpr hoff, hr, accessLegal_eq_false hbad]
  · rw [step_of_hostRead hi]
    simp [hostRead, inWindow_eq_true_iff.mpr hoff, hr, accessLegal_eq_false hbad]

/-! ## Reads and WAIT (R73, R96) -/

/-- A 32-bit read at any aligned offset of the window, listed or not, answers the word there. -/
theorem hostRead_aligned {off : Nat} {s : State} (hr : s.rstN = true) (hoff : off < 4096) (halign : off % 4 = 0) :
    hostRead off 4 s = .next { s with resp := .data (readOffset off s) } := by
  simp [hostRead, inWindow_eq_true_iff.mpr hoff, hr, accessLegal, halign]

/-- 10_state.md R30: BUSY is bit 0 of STATUS. -/
theorem statusWord_getLsbD_zero (f : Status) : (statusWord f).getLsbD 0 = f.busy := by
  obtain ⟨hbusy, -⟩ := statusWord_fields f
  rw [BitVec.getLsbD, Nat.testBit_zero, hbusy]
  cases f.busy <;> rfl

/-- A turn of WAIT out of reset answers STATUS, and lines up a clock cycle and the next turn while BUSY. -/
theorem hostWait_eq {s : State} (hr : s.rstN = true) :
    hostWait s = .next { s with
      inputs := if s.status.busy then .clk :: .wait :: s.inputs else s.inputs, resp := .data (readReg .status s) } := by
  have hbit : (readReg .status s).getLsbD 0 = s.status.busy := statusWord_getLsbD_zero s.status
  simp only [hostWait, hr, if_true, hbit]
  split <;> rfl

theorem step_of_wait {s : State} {rest : List Event} (hi : s.inputs = .wait :: rest) :
    step s = hostWait { s with inputs := rest } := by
  simp only [step, nextEvent, hi, handleEvent]

/-! ## The same write twice (R73) -/

/-- R23: the unit field takes a legal value or keeps its own, so the second write finds what it would store. -/
theorem warlUnit_warlUnit (old : TempUnit) (v : BitVec 2) : warlUnit (warlUnit old v) v = warlUnit old v := by
  unfold warlUnit
  split_ifs <;> rfl

theorem statusW1C_statusW1C (v : Word) (f : Status) : statusW1C v (statusW1C v f) = statusW1C v f := by
  simp [statusW1C]

theorem writeHostRegs_writeHostRegs (r : Reg) (v : Word) (g : HostRegs) :
    writeHostRegs r v (writeHostRegs r v g) = writeHostRegs r v g := by
  cases r with
  | ctrl => simp only [writeHostRegs, warlUnit_warlUnit]
  | sealevelLo => simp only [writeHostRegs, hiWord_append]
  | sealevelHi => simp only [writeHostRegs, loWord_append]
  | calbyte i => simp only [writeHostRegs, Vector.set_set]
  | _ => rfl

theorem writeFrame_writeFrame (r : Reg) (v : Word) (f : Frame) :
    writeFrame r v (writeFrame r v f) = writeFrame r v f := by
  cases r <;> rfl

/-- A write reaches the host's registers, the frame and STATUS, and each of the three keeps its second write. -/
theorem writeReg_writeReg (r : Reg) (v : Word) (s : State) : writeReg r v (writeReg r v s) = writeReg r v s := by
  simp only [writeReg, writeHostRegs_writeHostRegs, writeFrame_writeFrame]
  split
  · rw [statusW1C_statusW1C]
  · rfl

/-- Settles O39: a read event and WAIT's turn write the bus's answer, and each write rule is idempotent. -/
theorem readsHaveNoEffectAndWritesAreIdempotent : Obligations.ReadsHaveNoEffectAndWritesAreIdempotent := by
  refine ⟨fun s rest off hr hoff halign hi => ?_, fun s rest hr hi => ?_, writeReg_writeReg⟩
  · exact (step_of_hostRead hi).trans (hostRead_aligned (s := { s with inputs := rest }) hr hoff halign)
  · exact (step_of_wait hi).trans (hostWait_eq (s := { s with inputs := rest }) hr)

/-! ## Which events stop the machine (R70, R181) -/

theorem writeCmd_next (w : Word) (s : State) : ∃ t, writeCmd w s = .next t := by
  unfold writeCmd
  split
  · exact ⟨_, rfl⟩
  · split
    · exact ⟨_, exec_eq _ _⟩
    · exact ⟨_, rfl⟩

theorem hostWrite_next_of_lt {off : Nat} (width : Nat) (v : Word) (s : State) (h : off < 4096) :
    ∃ t, hostWrite off width v s = .next t := by
  unfold hostWrite
  rw [if_pos (inWindow_eq_true_iff.mpr h)]
  split
  · split
    · split
      · exact writeCmd_next _ _
      · exact ⟨_, rfl⟩
      · exact ⟨_, rfl⟩
    · exact ⟨_, rfl⟩
  · exact ⟨_, rfl⟩

theorem hostRead_next_of_lt {off : Nat} (width : Nat) (s : State) (h : off < 4096) :
    ∃ t, hostRead off width s = .next t := by
  unfold hostRead
  rw [if_pos (inWindow_eq_true_iff.mpr h)]
  split
  · split <;> exact ⟨_, rfl⟩
  · exact ⟨_, rfl⟩

theorem hostWrite_fault_of_le {off : Nat} (width : Nat) (v : Word) (s : State) (h : 4096 ≤ off) :
    hostWrite off width v s = .fault (.outsideWindow off) :=
  if_neg fun hw => absurd (inWindow_eq_true_iff.mp hw) (Nat.not_lt.mpr h)

theorem hostRead_fault_of_le {off : Nat} (width : Nat) (s : State) (h : 4096 ≤ off) :
    hostRead off width s = .fault (.outsideWindow off) :=
  if_neg fun hw => absurd (inWindow_eq_true_iff.mp hw) (Nat.not_lt.mpr h)

theorem hostWait_next (s : State) : ∃ t, hostWait s = .next t := by
  unfold hostWait
  dsimp only
  split_ifs <;> exact ⟨_, rfl⟩

/-- Settles O60, by the next event: only an access outside the window and an absent class do not go on. -/
theorem stepsCompleteUnlessOutsideTheWindow : Obligations.StepsCompleteUnlessOutsideTheWindow := by
  intro s
  cases hi : s.inputs with
  | nil =>
    have hstep : step s = clkCycle s := by simp only [step, nextEvent, hi]
    exact .inl (hstep ▸ clkCycle_next s)
  | cons e rest =>
    have hstep : step s = handleEvent e { s with inputs := rest } := by simp only [step, nextEvent, hi]
    rw [hstep]
    cases e with
    | hostWrite off width v =>
      rcases Nat.lt_or_ge off 4096 with h | h
      · exact .inl (hostWrite_next_of_lt width v _ h)
      · exact .inr (.inl ⟨off, width, .inr ⟨v, rfl⟩, h, hostWrite_fault_of_le width v _ h⟩)
    | hostRead off width =>
      rcases Nat.lt_or_ge off 4096 with h | h
      · exact .inl (hostRead_next_of_lt width _ h)
      · exact .inr (.inl ⟨off, width, .inl rfl, h, hostRead_fault_of_le width _ h⟩)
    | clk => exact .inl (clkCycle_next _)
    | wait => exact .inl (hostWait_next _)
    | rst l => exact .inl ⟨_, rfl⟩
    | powerCycle => exact .inl ⟨_, rfl⟩
    | absent c => exact .inr (.inr ⟨c, rfl, rfl⟩)

end Sys2Proof.Machine
end

section
/-! PROOF. The encoder and the decoder of command words agree on every word (30_encoding.md R90 to R92). The three
descriptions of the words (`decode`, `legalWord` and numbers) meet in the two fields of R90. -/

namespace Sys2Proof.Machine

/-! ## The fields of a command word -/

@[simp] theorem rsvField_encode (i : Instr) : rsvField (encode i) = 0 :=
  BitVec.extractLsb'_append_eq_left

@[simp] theorem opcField_encode (i : Instr) : opcField (encode i) = opcode i :=
  BitVec.extractLsb'_append_eq_right

theorem rsvField_eq_zero_iff {w : Word} : rsvField w = 0 ↔ w.toNat / 256 = 0 := by
  have hw := w.isLt
  rw [← BitVec.toNat_inj, rsvField, BitVec.extractLsb'_toNat, Nat.shiftRight_eq_div_pow, BitVec.ofNat_eq_ofNat,
    BitVec.toNat_zero]
  omega

theorem opcField_toNat (w : Word) : (opcField w).toNat = w.toNat % 256 := by
  rw [opcField, BitVec.extractLsb'_toNat, Nat.shiftRight_zero]

/-! ## The opcode map -/

@[simp] theorem decodeOpc_opcode (i : Instr) : decodeOpc (opcode i) = some i := by
  cases i <;> rfl

theorem mem_definedOpcs_iff {opc : Byte} :
    opc ∈ definedOpcs ↔ opc.toNat ≤ 4 ∨ opc.toNat = 16 ∨ opc.toNat = 17 := by
  simp only [definedOpcs, List.mem_cons, List.not_mem_nil, or_false]
  bv_omega

/-- Every row of the table of R91 is a command's. -/
theorem exists_opcode_of_mem_definedOpcs {opc : Byte} (h : opc ∈ definedOpcs) : ∃ i, opc = opcode i := by
  have hrows : definedOpcs = [.nop, .calLoad, .tempComp, .presComp, .altComp, .swRead, .swCheck].map opcode := rfl
  rw [hrows] at h
  obtain ⟨i, -, hi⟩ := List.mem_map.mp h
  exact ⟨i, hi.symm⟩

/-! ## The words that decode -/

@[simp] theorem decode_encode (i : Instr) : decode (encode i) = .ok i := by
  simp [decode]

theorem decode_eq_ok_iff {w : Word} {i : Instr} : decode w = .ok i ↔ w = encode i :=
  ⟨eq_encode_of_decode, fun h => h ▸ decode_encode i⟩

theorem legalWord_iff {w : Word} : legalWord w = true ↔ rsvField w = 0 ∧ opcField w ∈ definedOpcs := by
  simp [legalWord, rsvClear, opcDefined]

/-- R92's two checks in numbers. -/
theorem legalWord_iff_toNat {w : Word} : legalWord w = true ↔
    w.toNat / 256 = 0 ∧ (w.toNat % 256 ≤ 4 ∨ w.toNat % 256 = 16 ∨ w.toNat % 256 = 17) := by
  rw [legalWord_iff, rsvField_eq_zero_iff, mem_definedOpcs_iff, opcField_toNat]

theorem legalWord_iff_exists_decode {w : Word} : legalWord w = true ↔ ∃ i, decode w = .ok i := by
  refine ⟨fun h => ?_, fun ⟨_, hd⟩ => legalWord_of_decode_ok hd⟩
  obtain ⟨hrsv, hopc⟩ := legalWord_iff.mp h
  obtain ⟨i, hi⟩ := exists_opcode_of_mem_definedOpcs hopc
  exact ⟨i, by simp [decode, hrsv, hi]⟩

/-- Settles O2: each command's word decodes to it alone, and the decoder accepts what both checks of R92 pass. -/
theorem decodeInvertsEncode : Obligations.DecodeInvertsEncode :=
  ⟨fun _ _ => decode_eq_ok_iff, fun _ => legalWord_iff_exists_decode.symm.trans legalWord_iff_toNat,
    fun _ => legalWord_iff_exists_decode⟩

/-- Settles O1: the seven words are the words of the seven commands. -/
theorem decodesTheSevenWords : Obligations.DecodesTheSevenWords :=
  ⟨decode_encode .nop, decode_encode .calLoad, decode_encode .tempComp, decode_encode .presComp, decode_encode .altComp,
    decode_encode .swRead, decode_encode .swCheck⟩

end Sys2Proof.Machine
end

section
/-! PROOF. The commit tick that the COMPUTE commands share (60_exceptions.md R196, R197), in the words of the
obligations: `commitTick` and `ended`. -/

namespace Sys2Proof.Machine

/-- 60_exceptions.md R197: at tick `P_COMP_LATENCY - 1` a COMPUTE command performs its rule. -/
theorem exec_of_commitTick {s : State} {i : Instr} {rule : State → State} (h : commitTick s)
    (hi : tickOf i = computeTick rule) : exec i s = .next (rule s) := by
  obtain ⟨hbusy, hcnt⟩ := h
  rw [exec_of_busy hbusy, hi, computeTick_due hcnt]

theorem commit_eq_ended (code : ErrCode) (s : State) : commit code s = ended code s := rfl

theorem raise_eq_ended (code : ErrCode) (s : State) : raise code s = ended code s := rfl

end Sys2Proof.Machine
end

section
/-! PROOF. CAL_LOAD's commit and the coefficients it decodes (40_calibration.md R110, R111). -/

namespace Sys2Proof.Machine

/-! ## The two cases of the identity check -/

theorem exec_calLoad_of_match {s : State} (h : commitTick s) (hid : s.eng.snap.calid = s.par.expectedId) :
    exec .calLoad s = .next (ended .ok { s with
      coef := calDecode s.eng.snap.calbyte, status := { s.status with calValid := true } }) := by
  rw [exec_of_commitTick h rfl]
  rcases calLoadCommit_cases s with ⟨-, heq⟩ | ⟨hne, -⟩
  · rw [heq, commit_eq_ended]
  · exact absurd hid hne

theorem exec_calLoad_of_mismatch {s : State} (h : commitTick s) (hid : s.eng.snap.calid ≠ s.par.expectedId) :
    exec .calLoad s = .next (ended .identityMismatch s) := by
  rw [exec_of_commitTick h rfl]
  rcases calLoadCommit_cases s with ⟨heq, -⟩ | ⟨-, heq⟩
  · exact absurd heq hid
  · rw [heq, raise_eq_ended]

/-! ## The number a coefficient register reads -/

/-- R111: the first byte of the pair is the high one. -/
theorem calPair_toNat (b : Vector Byte 22) (k : Fin 11) :
    ((calPair b k).toNat : Int) = 256 * (b[2 * k.val].toNat : Int) + (b[2 * k.val + 1].toNat : Int) := by
  rw [calPair, toNat_append_eq_add]
  omega

/-- 10_state.md R43: a coefficient of the signed eight, as two's complement of its number. -/
theorem toInt_sext_eq_ite (x : BitVec 16) :
    (x.signExtend 32).toInt = if (x.toNat : Int) < 32768 then (x.toNat : Int) else x.toNat - 65536 := by
  rw [toInt_sext, BitVec.toInt_eq_toNat_cond]
  split <;> split <;> omega

/-- 10_state.md R43: AC4, AC5 and AC6 are extended by zeros. -/
theorem toInt_zext (x : BitVec 16) : (x.setWidth 32).toInt = x.toNat :=
  BitVec.toInt_setWidth'_of_lt (by decide)

/-- Settles O11: each register reads the extension of one pair of `calDecode`. -/
theorem calLoadDecodesTheBlock : Obligations.CalLoadDecodesTheBlock := by
  intro s h hid
  refine ⟨_, exec_calLoad_of_match h hid, fun t ht => ?_⟩
  simp only [readReg, ht, calDecode, toInt_sext_eq_ite, toInt_zext, calPair_toNat, and_self]

/-- Settles O12, by the error case of the commit. -/
theorem calLoadMismatchWritesNothing : Obligations.CalLoadMismatchWritesNothing := fun _ =>
  exec_calLoad_of_mismatch

end Sys2Proof.Machine
end

section
/-! PROOF. The stages of the compensation pipeline in the step-by-step words of the obligations, and the commits of
TEMP_COMP, PRES_COMP and ALT_COMP (41_compensation.md R125 to R142). -/

namespace Sys2Proof.Machine

/-! ## Wrapping -/

/-- R120: wrapping a factor early does not change the wrapped product. -/
theorem s32_s32_mul (a b : Int) : s32 (s32 a * b) = s32 (a * b) := Int.bmod_mul_bmod

/-- R120: wrapping an addend early does not change the wrapped sum. -/
theorem s32_s32_add (a b : Int) : s32 (s32 a + b) = s32 (a + b) := Int.bmod_add_bmod

/-! ## The temperature stage (R125, R126) -/

theorem tempDcOf_eq_fdiv (b5 : Int) : tempDcOf b5 = Int.fdiv (s32 (b5 + 8)) 16 :=
  (Int.fdiv_eq_ediv_of_nonneg _ (by decide)).symm

section
variable {sn : Snap} {x1 d b5 dc : Int} (h : temperatureChain sn x1 d b5 dc)
include h

theorem temperatureChain_x1 : tempX1 (operandUT sn) sn.coef = x1 := by
  rw [tempX1, s32_s32_mul]
  exact h.1.symm

theorem temperatureChain_divisor : s32 (tempX1 (operandUT sn) sn.coef + coefMD sn.coef) = d := by
  rw [temperatureChain_x1 h]
  exact h.2.1.symm

theorem tempResultOf_of_temperatureChain : tempResultOf b5 = temperatureRegs b5 dc := by
  obtain ⟨-, -, -, hdc⟩ := h
  rw [tempResultOf, tempDcOf_eq_fdiv, ← hdc]
  rfl

theorem tempStage_of_divisor_zero (hd : d = 0) : tempStage (operandUT sn) sn.coef = .error .arithmetic := by
  rcases tempStage_cases (operandUT sn) sn.coef with ⟨-, ht⟩ | ⟨hne, -⟩
  · exact ht
  · exact absurd ((temperatureChain_divisor h).trans hd) hne

theorem tempStage_of_divisor_ne_zero (hd : d ≠ 0) : tempStage (operandUT sn) sn.coef = .ok b5 := by
  rcases tempStage_cases (operandUT sn) sn.coef with ⟨heq, -⟩ | ⟨-, ht⟩
  · exact absurd ((temperatureChain_divisor h).symm.trans heq) hd
  · rw [ht, temperatureChain_divisor h, temperatureChain_x1 h]
    obtain ⟨-, -, hb5, -⟩ := h
    exact congrArg Except.ok hb5.symm

end

/-! ## The pressure stage (R130 to R132) -/

/-- R136: the mode's two low bits are a valid mode. -/
theorem operandOss_eq {sn : Snap} (h : sn.mode.toNat ≤ 3) : operandOss sn = sn.mode.toNat := by
  rw [operandOss, BitVec.extractLsb'_toNat, Nat.shiftRight_zero]
  exact Nat.mod_eq_of_lt (by omega)

/-- R130: the shift is a division by a power of two. -/
theorem operandUP_eq (sn : Snap) (oss : Nat) : operandUP sn oss = sn.rawp.toNat / 2 ^ (8 - oss) :=
  Nat.shiftRight_eq_div_pow _ _

theorem operandUP_lt (sn : Snap) {oss : Nat} (h : oss ≤ 8) : operandUP sn oss < 2 ^ (16 + oss) := by
  rw [operandUP_eq]
  refine Nat.div_lt_of_lt_mul ?_
  rw [← pow_add, show 8 - oss + (16 + oss) = 24 by omega]
  exact sn.rawp.isLt

/-- R131: 50000 shifted right by a valid mode. -/
theorem b7_factor {oss : Nat} (h : oss ≤ 3) : ((50000 >>> oss : Nat) : Int) =
    if oss = 0 then 50000 else if oss = 1 then 25000 else if oss = 2 then 12500 else 6250 := by
  interval_cases oss <;> rfl

theorem b4Chain_eq {sn : Snap} {b5 b4 : Int} (h : b4Chain sn b5 b4) : pressB4 sn.coef (s32 (b5 - 4000)) = b4 := by
  obtain ⟨_, _, _, rfl, rfl, rfl, rfl⟩ := h
  rfl

section
variable {sn : Snap} {oss : Nat} {b5 b4 up p : Int} (h : pressureChain sn oss b5 b4 up p)
include h

theorem pressureChain_up : up = operandUP sn oss := by
  obtain ⟨_, _, _, _, _, _, _, _, hup, -⟩ := h
  rw [hup, operandUP_eq]

/-- R131, R132: the model's two parts are the chain's steps, with one wrap of `AC1 * 4` in between. -/
theorem pressureChain_p (hoss : oss ≤ 3) :
    pressCorrect (s32 (pressQuotient b4 (pressPart1 sn.coef b5 (operandUP sn oss) oss).b7)) = p := by
  rw [← pressureChain_up h]
  obtain ⟨_, _, _, _, _, _, _, _, -, rfl, rfl, rfl, rfl, rfl, rfl, rfl, rfl, rfl⟩ := h
  rw [pressPart1, pressB3, s32_s32_add, b7_factor hoss]
  rfl

end

/-! ## PRES_COMP's values and errors (R134, R136) -/

section
variable {sn : Snap} (hcal : sn.calValid = true) (hmode : sn.mode.toNat ≤ 3)
include hcal hmode

theorem presCompResult_of_tempStage_error {e : ErrCode} (ht : tempStage (operandUT sn) sn.coef = .error e) :
    presCompResult sn = .error e := by
  simp [presCompResult, modeValid, hcal, hmode, ht]

/-- The values of a valid snapshot whose temperature stage answers are those of part 2. -/
theorem presCompResult_of_tempStage_ok {b5 b4 : Int} (ht : tempStage (operandUT sn) sn.coef = .ok b5)
    (hb4 : b4Chain sn b5 b4) :
    presCompResult sn =
      (pressPart2 b4 (pressPart1 sn.coef b5 (operandUP sn sn.mode.toNat) sn.mode.toNat).b7).map
        fun p => { b5 := b5, up := operandUP sn sn.mode.toNat, p := p } := by
  have hpart : (pressPart1 sn.coef b5 (operandUP sn sn.mode.toNat) sn.mode.toNat).b4 = b4 := b4Chain_eq hb4
  simp only [presCompResult, modeValid, hcal, hmode, ht, operandOss_eq hmode, hpart, Bool.not_true, decide_true]
  generalize pressPart2 b4 _ = r
  cases r <;> rfl

theorem presCompResult_of_b4_zero {b5 b4 : Int} (ht : tempStage (operandUT sn) sn.coef = .ok b5)
    (hb4 : b4Chain sn b5 b4) (h0 : b4 = 0) : presCompResult sn = .error .arithmetic := by
  rw [presCompResult_of_tempStage_ok hcal hmode ht hb4, pressPart2, if_pos h0]
  rfl

theorem presCompResult_of_chains {b5 b4 up p : Int} (ht : tempStage (operandUT sn) sn.coef = .ok b5)
    (hb4 : b4Chain sn b5 b4) (h0 : b4 ≠ 0) (hp : pressureChain sn sn.mode.toNat b5 b4 up p) :
    presCompResult sn = .ok { b5 := b5, up := operandUP sn sn.mode.toNat, p := p } := by
  rw [presCompResult_of_tempStage_ok hcal hmode ht hb4, pressPart2, if_neg h0, pressureChain_p hp hmode]
  rfl

end

theorem presResultOf_of_pressureChain {sn : Snap} {oss : Nat} {b5 b4 up p : Int} (h : pressureChain sn oss b5 b4 up p) :
    presResultOf { b5 := b5, up := operandUP sn oss, p := p } = pressureRegs up p := by
  rw [presResultOf, pressureRegs, pressureChain_up h, BitVec.ofInt_natCast]

/-! ## The commits (R135, R136, R142) -/

section
variable {s : State} (h : commitTick s)
include h

theorem exec_tempComp_of_ok {b5 : Int} (hr : tempCompResult s.eng.snap = .ok b5) :
    exec .tempComp s = .next (ended .ok { s with temp := tempResultOf b5 }) := by
  rw [exec_of_commitTick h rfl, tempCompCommit, hr]
  rfl

theorem exec_tempComp_of_error {e : ErrCode} (hr : tempCompResult s.eng.snap = .error e) :
    exec .tempComp s = .next (ended e s) := by
  rw [exec_of_commitTick h rfl, tempCompCommit, hr]
  rfl

theorem exec_presComp_of_ok {o : PressOut} (hr : presCompResult s.eng.snap = .ok o) :
    exec .presComp s = .next (ended .ok { s with temp := tempResultOf o.b5, pres := presResultOf o }) := by
  rw [exec_of_commitTick h rfl, presCompCommit, hr]
  rfl

theorem exec_altComp_of_ok {o : PressOut} (hr : presCompResult s.eng.snap = .ok o) :
    exec .altComp s = .next (ended .ok { s with
      temp := tempResultOf o.b5, pres := presResultOf o
      alt := altitude Config.pow.fn o.p s.eng.snap.sealevel }) := by
  rw [exec_of_commitTick h rfl, altCompCommit, hr]
  rfl

/-- R142: "The errors are exactly those of PRES_COMP". -/
theorem exec_pressure_of_error {i : Instr} (hi : i = .presComp ∨ i = .altComp) {e : ErrCode}
    (hr : presCompResult s.eng.snap = .error e) : exec i s = .next (ended e s) := by
  rcases hi with rfl | rfl
  · rw [exec_of_commitTick h rfl, presCompCommit, hr]
    rfl
  · rw [exec_of_commitTick h rfl, altCompCommit, hr]
    rfl

end

/-- R140: the exponent is the quotient 1.0 / 5.255. -/
theorem altExponent_eq : f64Div f64One f64AltDivisor = f64AltExponent := by decide +kernel

/-! ## The obligations -/

/-- Settles O13: the temperature stage and its registers are those of the chain. -/
theorem tempCompComputesTheTemperature : Obligations.TempCompComputesTheTemperature := by
  intro s x1 d b5 dc h hcal hchain hd
  have hr : tempCompResult s.eng.snap = .ok b5 := by
    rw [tempCompResult, if_pos hcal, tempStage_of_divisor_ne_zero hchain hd]
  rw [exec_tempComp_of_ok h hr, tempResultOf_of_temperatureChain hchain]

/-- Settles O14, by the two errors of TEMP_COMP's checks. -/
theorem tempCompErrors : Obligations.TempCompErrors := by
  refine ⟨fun s h hcal => exec_tempComp_of_error h ?_, fun s x1 d b5 dc h hcal hchain hd => exec_tempComp_of_error h ?_⟩
  · simp [tempCompResult, hcal]
  · rw [tempCompResult, if_pos hcal, tempStage_of_divisor_zero hchain hd]

/-- Settles O15: the values of the stages are those of the chains. -/
theorem presCompComputesThePressure : Obligations.PresCompComputesThePressure := by
  intro s x1 d b5 dc b4 up p h hcal hmode hchain hd hb4 h0 hp
  have hr := presCompResult_of_chains hcal hmode (tempStage_of_divisor_ne_zero hchain hd) hb4 h0 hp
  rw [exec_presComp_of_ok h hr, tempResultOf_of_temperatureChain hchain, presResultOf_of_pressureChain hp]

/-- Settles O16: PRES_COMP's values, and R140's formula with its exponent evaluated. -/
theorem altCompComputesTheAltitude : Obligations.AltCompComputesTheAltitude := by
  intro s x1 d b5 dc b4 up p h hcal hmode hchain hd hb4 h0 hp
  have hr := presCompResult_of_chains hcal hmode (tempStage_of_divisor_ne_zero hchain hd) hb4 h0 hp
  rw [exec_altComp_of_ok h hr, tempResultOf_of_temperatureChain hchain, presResultOf_of_pressureChain hp, altitude,
    altExponent_eq]
  rfl

/-- Settles O17, by the four errors of the shared checks. -/
theorem pressureErrorsInOrder : Obligations.PressureErrorsInOrder := by
  intro i s x1 d b5 dc b4 hi h
  refine ⟨fun hcal => ?_, fun hcal hmode => ?_, fun hcal hmode hchain hd => ?_,
    fun hcal hmode hchain hd hb4 h0 => ?_⟩ <;> refine exec_pressure_of_error h hi ?_
  · simp [presCompResult, hcal]
  · simp [presCompResult, modeValid, hcal, hmode]
  · exact presCompResult_of_tempStage_error hcal hmode (tempStage_of_divisor_zero hchain hd)
  · exact presCompResult_of_b4_zero hcal hmode (tempStage_of_divisor_ne_zero hchain hd) hb4 h0

/-- Settles O43: RAWP has 24 bits. -/
theorem normalisedPressureBounds : Obligations.NormalisedPressureBounds := by
  intro sn h
  rw [operandOss_eq h]
  exact ⟨rfl, operandUP_eq sn _, operandUP_lt sn (by omega)⟩

end Sys2Proof.Machine
end

section
/-! PROOF. The classes of binary64 patterns, and what the operations answer on zeros, infinities and NaNs
(41_compensation.md R123). -/

namespace Sys2Proof.Machine

/-! ## Classes of patterns -/

theorem f64Mag_eq (x : F64) : f64Mag x = x.toNat % 2 ^ 63 := by
  rw [f64Mag, BitVec.extractLsb'_toNat, Nat.shiftRight_zero]

theorem f64IsNaN_iff (x : F64) : f64IsNaN x = true ↔ nanPattern x := by
  rw [f64IsNaN, decide_eq_true_eq, f64Mag_eq]
  rfl

theorem f64IsFinite_iff (x : F64) : f64IsFinite x = true ↔ finitePattern x := by
  rw [f64IsFinite, decide_eq_true_eq, f64Mag_eq, finitePattern, f64InfMag]
  omega

theorem finitePattern_of_zeroPattern {x : F64} (h : zeroPattern x) : finitePattern x := by
  unfold zeroPattern at h
  unfold finitePattern
  omega

/-- A pattern is a finite number, an infinity or a NaN. -/
theorem f64_trichotomy (x : F64) : finitePattern x ∨ infPattern x ∨ nanPattern x := by
  unfold finitePattern infPattern nanPattern
  omega

theorem f64Mant_of_zeroPattern {x : F64} (h : zeroPattern x) : f64Mant x = 0 := by
  unfold zeroPattern at h
  unfold f64Mant f64ExpField
  rw [if_pos (by omega)]
  omega

theorem f64Value_of_nan {x : F64} (h : nanPattern x) : f64Value x = .nan := by
  unfold nanPattern at h
  simp only [f64Value, BitVec.extractLsb'_toNat, Nat.shiftRight_eq_div_pow]
  rw [if_pos (by omega), if_neg (by omega)]

theorem f64Value_of_inf {x : F64} (h : infPattern x) : f64Value x = .inf (f64Neg x) := by
  unfold infPattern at h
  simp only [f64Value, BitVec.extractLsb'_toNat, Nat.shiftRight_eq_div_pow]
  rw [if_pos (by omega), if_pos (by omega)]

theorem f64Value_of_zero {x : F64} (h : zeroPattern x) : f64Value x = .fin (f64Neg x) 0 (f64Exp x) := by
  rw [f64Value_of_finite (finitePattern_of_zeroPattern h), f64Mant_of_zeroPattern h]

/-! ## Operations on a NaN -/

@[simp] theorem f64SumValue_nan_left (v : F64Value) : f64SumValue .nan v = f64NaN := by cases v <;> rfl
@[simp] theorem f64ProdValue_nan_left (v : F64Value) : f64ProdValue .nan v = .nan := by cases v <;> rfl
@[simp] theorem f64QuotValue_nan_left (v : F64Value) : f64QuotValue .nan v = f64NaN := by cases v <;> rfl
@[simp] theorem f64SumValue_nan_right (v : F64Value) : f64SumValue v .nan = f64NaN := by cases v <;> rfl
@[simp] theorem f64ProdValue_nan_right (v : F64Value) : f64ProdValue v .nan = .nan := by cases v <;> rfl
@[simp] theorem f64QuotValue_nan_right (v : F64Value) : f64QuotValue v .nan = f64NaN := by cases v <;> rfl

theorem f64_ops_of_nan {x y : F64} (z : F64) (h : nanPattern x ∨ nanPattern y) :
    f64Add x y = f64NaN ∧ f64Sub x y = f64NaN ∧ f64Mul x y = f64NaN ∧ f64Div x y = f64NaN ∧
      f64Fma x y z = f64NaN ∧ f64Fma x z y = f64NaN := by
  rcases h with h | h <;>
    simp [f64Add, f64Sub, f64Mul, f64Div, f64Fma, f64Value_of_nan h, f64NegValue, f64OfValue]

/-! ## Division by zero -/

theorem f64Div_of_zero {x y : F64} (hx : finitePattern x) (hx0 : ¬ zeroPattern x) (hy : zeroPattern y) :
    f64Div x y = f64Inf (f64Neg x ^^ f64Neg y) := by
  rw [f64Div, f64Value_of_finite hx, f64Value_of_zero hy]
  simp [f64QuotValue, f64Mant_ne_zero hx0]

theorem negPattern_f64Inf (a : Bool) : negPattern (f64Inf a) ↔ a = true := by
  rw [negPattern_iff, f64Inf, f64Neg_f64Signed a (by decide)]

theorem f64Div_of_zeros {x y : F64} (hx : zeroPattern x) (hy : zeroPattern y) : f64Div x y = f64NaN := by
  rw [f64Div, f64Value_of_zero hx, f64Value_of_zero hy]
  rfl

/-! ## Invalid operations on infinities -/

section
variable {x y : F64} (hx : infPattern x) (hy : infPattern y)
include hx hy

theorem f64Div_of_infs : f64Div x y = f64NaN := by
  rw [f64Div, f64Value_of_inf hx, f64Value_of_inf hy]
  rfl

theorem f64Add_of_opposite_infs (h : f64Neg x ≠ f64Neg y) : f64Add x y = f64NaN := by
  rw [f64Add, f64Value_of_inf hx, f64Value_of_inf hy]
  exact if_neg h

theorem f64Sub_of_equal_infs (h : f64Neg x = f64Neg y) : f64Sub x y = f64NaN := by
  rw [f64Sub, f64Value_of_inf hx, f64Value_of_inf hy]
  exact if_neg (h ▸ (Bool.not_ne_self _).symm)

end

/-- 0 times infinity, in either order, alone and as a product to be added. -/
theorem f64_ops_of_zero_inf {x y : F64} (z : F64) (hx : zeroPattern x) (hy : infPattern y) :
    f64Mul x y = f64NaN ∧ f64Mul y x = f64NaN ∧ f64Fma x y z = f64NaN ∧ f64Fma y x z = f64NaN := by
  simp [f64Mul, f64Fma, f64Value_of_zero hx, f64Value_of_inf hy, f64ProdValue, f64OfValue, f64SumValue]

/-! ## The canonical NaN -/

theorem f64Canon_of_not_nan {x : F64} (h : ¬ nanPattern x) : f64Canon x = x :=
  if_neg (mt (f64IsNaN_iff x).mp h)

theorem f64Canon_eq_nan {x : F64} (h : nanPattern (f64Canon x)) : f64Canon x = f64NaN := by
  by_cases hx : nanPattern x
  · exact if_pos ((f64IsNaN_iff x).mpr hx)
  · rw [f64Canon_of_not_nan hx] at h
    exact absurd h hx

/-- Settles O47, class by class of the operands. -/
theorem floatSpecialValues : Obligations.FloatSpecialValues := by
  refine ⟨fun x y z => f64_ops_of_nan z, fun x y hx hx0 hy => ?_, fun x y => f64Div_of_zeros,
    fun x y hx hy => ⟨f64Div_of_infs hx hy, fun h => f64Add_of_opposite_infs hx hy ?_,
      fun h => f64Sub_of_equal_infs hx hy ?_⟩,
    fun x y z => f64_ops_of_zero_inf z, fun pow p ref => f64Canon_eq_nan⟩
  · rw [f64Div_of_zero hx hx0 hy, negPattern_f64Inf, negPattern_iff, negPattern_iff]
    exact ⟨infPattern_f64Inf _, by cases f64Neg x <;> cases f64Neg y <;> decide⟩
  · rw [negPattern_iff, negPattern_iff] at h
    exact fun heq => by simp [heq] at h
  · rwa [negPattern_iff, negPattern_iff, ← Bool.eq_iff_iff] at h

end Sys2Proof.Machine
end

section
/-! PROOF. The order of binary64 patterns (00_scope.md R12): a finite pattern's order key grows strictly with its
number, and rounding is monotone, so an operation is monotone where its exact result is. -/

namespace Sys2Proof.Machine

/-! ## The order key -/

theorem f64Key_f64Signed (neg : Bool) {mag : Nat} (h : mag < 2 ^ 63) :
    f64Key (f64Signed neg mag) = signedMant neg mag := by
  have hmag : f64Mag (f64Signed neg mag) = mag := by
    rw [f64Mag_eq, f64Signed_toNat neg h]
    omega
  rw [f64Key, f64Neg_f64Signed neg h, hmag, signedMant]

theorem f64Signed_neg_mag (x : F64) : f64Signed (f64Neg x) (f64Mag x) = x := by
  have hx := x.isLt
  refine BitVec.eq_of_toNat_eq ?_
  rw [f64Mag_eq, f64Signed_toNat _ (by omega), f64Neg_eq_decide]
  by_cases h : x.toNat / 2 ^ 63 = 1
  · rw [decide_eq_true h, Bool.toNat_true]
    omega
  · rw [decide_eq_false h, Bool.toNat_false]
    omega

/-- The sign and the key determine the pattern: the two zeros share a key. -/
theorem f64_eq_of_neg_of_key {x y : F64} (hneg : f64Neg x = f64Neg y) (hkey : f64Key x = f64Key y) : x = y := by
  have hmag : f64Mag x = f64Mag y := by
    unfold f64Key at hkey
    rw [hneg] at hkey
    split at hkey <;> omega
  rw [← f64Signed_neg_mag x, ← f64Signed_neg_mag y, hneg, hmag]

/-- A key is even where the pattern's last bit is 0. -/
theorem f64Key_even {x : F64} (h : x.toNat % 2 = 0) : f64Key x % 2 = 0 := by
  rw [f64Key, f64Mag_eq]
  split <;> omega

/-- The keys of the finite patterns. -/
def finiteKeys : Set Int := Set.Ioo (-(f64InfMag : Int)) f64InfMag

theorem f64Key_mem_finiteKeys {x : F64} (h : finitePattern x) : f64Key x ∈ finiteKeys := by
  have hmag : f64Mag x < f64InfMag := of_decide_eq_true ((f64IsFinite_iff x).mpr h)
  unfold f64Key
  constructor <;> split <;> omega

/-- The pattern with a given key; of the two zeros the positive one. -/
def ofKey (k : Int) : F64 := f64Signed (decide (k < 0)) k.natAbs

section
variable {k : Int} (h : k ∈ finiteKeys)
include h

theorem natAbs_lt_of_mem_finiteKeys : k.natAbs < f64InfMag := by
  obtain ⟨hlo, hhi⟩ := h
  omega

theorem finitePattern_ofKey : finitePattern (ofKey k) :=
  finitePattern_f64Signed _ (natAbs_lt_of_mem_finiteKeys h)

theorem f64Key_ofKey : f64Key (ofKey k) = k := by
  rw [ofKey, f64Key_f64Signed _ ((natAbs_lt_of_mem_finiteKeys h).trans (by decide)), signedMant]
  by_cases hk : k < 0
  · rw [decide_eq_true hk, if_pos rfl]
    omega
  · rw [decide_eq_false hk, if_neg Bool.false_ne_true]
    omega

end

/-! ## The key and the number -/

/-- A magnitude field as a multiple of a unit of the last place that the next field is a multiple of, too. -/
theorem magnitude_decompose (k : Nat) :
    ∃ q m : Nat, k = q * 2 ^ 52 + m ∧ m < 2 ^ 53 ∧ (q = 0 ∨ 2 ^ 52 ≤ m) :=
  ⟨k / 2 ^ 52 - 1, k - (k / 2 ^ 52 - 1) * 2 ^ 52, by omega, by omega, by omega⟩

theorem f64Rat_f64Signed_true {k : Nat} (h : k < f64InfMag) :
    f64Rat (f64Signed true k) = -f64Rat (f64Signed false k) := by
  obtain ⟨q, m, rfl, hm, hq⟩ := magnitude_decompose k
  rw [f64Rat_f64Signed true hm.le hq h, f64Rat_f64Signed false hm.le hq h]
  simp

theorem f64Rat_f64Signed_lt_succ {k : Nat} (h : k + 1 < f64InfMag) :
    f64Rat (f64Signed false k) < f64Rat (f64Signed false (k + 1)) := by
  obtain ⟨q, m, rfl, hm, hq⟩ := magnitude_decompose k
  rw [add_assoc] at h ⊢
  rw [f64Rat_f64Signed false hm.le hq (by omega), f64Rat_f64Signed false hm (by omega) h]
  simp only [signRat_false, one_mul]
  gcongr
  exact Nat.lt_succ_self m

theorem ofKey_natCast (k : Nat) : ofKey k = f64Signed false k := by
  rw [ofKey, decide_eq_false (by omega), Int.natAbs_natCast]

theorem ofKey_neg_natCast {k : Nat} (h : 0 < k) : ofKey (-k) = f64Signed true k := by
  rw [ofKey, decide_eq_true (by omega), Int.natAbs_neg, Int.natAbs_natCast]

theorem f64Rat_f64Zero (neg : Bool) : f64Rat (f64Zero neg) = 0 := by
  have h := f64Rat_f64Signed neg (q := 0) (m := 0) (by decide) (.inl rfl) (by decide)
  simpa [f64Zero] using h

theorem f64Rat_ofKey_neg {k : Nat} (h : k < f64InfMag) : f64Rat (ofKey (-k)) = -f64Rat (ofKey k) := by
  rcases Nat.eq_zero_or_pos k with rfl | hk
  · have hzero : ofKey 0 = f64Zero false := ofKey_natCast 0
    simp [hzero, f64Rat_f64Zero]
  · rw [ofKey_neg_natCast hk, ofKey_natCast, f64Rat_f64Signed_true h]

theorem f64Rat_ofKey_strictMonoOn : StrictMonoOn (fun k => f64Rat (ofKey k)) finiteKeys := by
  refine strictMonoOn_of_lt_add_one Set.ordConnected_Ioo fun k _ hk hk1 => ?_
  have hnat (j : Nat) (hj : j + 1 < f64InfMag) : f64Rat (ofKey j) < f64Rat (ofKey (j + 1 : Nat)) := by
    rw [ofKey_natCast, ofKey_natCast]
    exact f64Rat_f64Signed_lt_succ hj
  obtain ⟨hlo, -⟩ := hk
  obtain ⟨-, hhi⟩ := hk1
  rcases le_or_gt 0 k with h | h
  · lift k to Nat using h
    exact hnat k (by omega)
  · obtain ⟨j, rfl⟩ : ∃ j : Nat, k = -((j + 1 : Nat) : Int) := ⟨(-k - 1).toNat, by omega⟩
    have hsucc : -((j + 1 : Nat) : Int) + 1 = -(j : Int) := by omega
    simp only [hsucc]
    rw [f64Rat_ofKey_neg (by omega), f64Rat_ofKey_neg (by omega)]
    exact neg_lt_neg (hnat j (by omega))

theorem f64Rat_eq_ofKey {x : F64} (h : finitePattern x) : f64Rat x = f64Rat (ofKey (f64Key x)) := by
  have hmag : f64Mag x < f64InfMag := of_decide_eq_true ((f64IsFinite_iff x).mpr h)
  conv_lhs => rw [← f64Signed_neg_mag x]
  cases hneg : f64Neg x with
  | false =>
    have hkey : f64Key x = f64Mag x := if_neg (by simp [hneg])
    rw [hkey, ofKey_natCast]
  | true =>
    have hkey : f64Key x = -f64Mag x := if_pos hneg
    rw [hkey, f64Rat_ofKey_neg hmag, f64Rat_f64Signed_true hmag, ofKey_natCast]

section
variable {x y : F64} (hx : finitePattern x) (hy : finitePattern y)
include hx hy

theorem f64Rat_le_iff : f64Rat x ≤ f64Rat y ↔ f64Key x ≤ f64Key y := by
  rw [f64Rat_eq_ofKey hx, f64Rat_eq_ofKey hy]
  exact f64Rat_ofKey_strictMonoOn.le_iff_le (f64Key_mem_finiteKeys hx) (f64Key_mem_finiteKeys hy)

theorem f64Rat_lt_iff : f64Rat x < f64Rat y ↔ f64Key x < f64Key y := by
  rw [← not_le, ← not_le, f64Rat_le_iff hy hx]

end

/-! ## Comparisons -/

theorem f64IsNaN_eq_false_iff (x : F64) : f64IsNaN x = false ↔ ¬ nanPattern x := by
  rw [← f64IsNaN_iff, Bool.not_eq_true]

theorem f64Le_iff (x y : F64) : f64Le x y = true ↔ ¬ nanPattern x ∧ ¬ nanPattern y ∧ f64Key x ≤ f64Key y := by
  simp [f64Le, f64IsNaN_eq_false_iff, and_assoc]

theorem f64Lt_iff (x y : F64) : f64Lt x y = true ↔ ¬ nanPattern x ∧ ¬ nanPattern y ∧ f64Key x < f64Key y := by
  simp [f64Lt, f64IsNaN_eq_false_iff, and_assoc]

theorem not_nanPattern_of_finite {x : F64} (h : finitePattern x) : ¬ nanPattern x := by
  unfold finitePattern at h
  unfold nanPattern
  omega

theorem not_nanPattern_of_inf {x : F64} (h : infPattern x) : ¬ nanPattern x := by
  unfold infPattern at h
  unfold nanPattern
  omega

theorem f64Key_f64Inf (a : Bool) : f64Key (f64Inf a) = signedMant a f64InfMag := f64Key_f64Signed a (by decide)

theorem f64_eq_inf {x : F64} (h : infPattern x) : x = f64Inf (f64Neg x) := by
  have hmag : f64Mag x = f64InfMag := (f64Mag_eq x).trans h
  conv_lhs => rw [← f64Signed_neg_mag x, hmag]
  rfl

/-- A pattern that is no NaN is finite or one of the two infinities. -/
theorem f64_finite_or_inf {x : F64} (h : ¬ nanPattern x) : finitePattern x ∨ x = f64Inf true ∨ x = f64Inf false := by
  rcases f64_trichotomy x with hfin | hinf | hnan
  · exact .inl hfin
  · rw [f64_eq_inf hinf]
    cases f64Neg x <;> simp
  · exact absurd hnan h

theorem f64Key_bounds {x : F64} (h : ¬ nanPattern x) : -(f64InfMag : Int) ≤ f64Key x ∧ f64Key x ≤ f64InfMag := by
  have hmag : f64Mag x ≤ f64InfMag := by
    rw [f64Mag_eq]
    exact not_lt.mp h
  unfold f64Key
  split <;> omega

theorem f64Le_of_neg_inf {y : F64} (h : ¬ nanPattern y) : f64Le (f64Inf true) y = true := by
  rw [f64Le_iff, f64Key_f64Inf]
  exact ⟨not_nanPattern_of_inf (infPattern_f64Inf true), h, (f64Key_bounds h).1⟩

theorem f64Le_of_pos_inf {x : F64} (h : ¬ nanPattern x) : f64Le x (f64Inf false) = true := by
  rw [f64Le_iff, f64Key_f64Inf]
  exact ⟨h, not_nanPattern_of_inf (infPattern_f64Inf false), (f64Key_bounds h).2⟩

/-- Two patterns in order are both finite, unless one of them is the infinity of its end. -/
theorem f64Le_cases {x y : F64} (h : f64Le x y = true) :
    x = f64Inf true ∨ y = f64Inf false ∨ (finitePattern x ∧ finitePattern y) := by
  obtain ⟨hx, hy, hle⟩ := (f64Le_iff x y).mp h
  have hpos : f64Key (f64Inf false) = f64InfMag := f64Key_f64Inf false
  have hneg : f64Key (f64Inf true) = -f64InfMag := f64Key_f64Inf true
  rcases f64_finite_or_inf hx with hxf | rfl | rfl
  · rcases f64_finite_or_inf hy with hyf | rfl | rfl
    · exact .inr (.inr ⟨hxf, hyf⟩)
    · exact absurd (hneg ▸ hle) (not_le.mpr (f64Key_mem_finiteKeys hxf).1)
    · exact .inr (.inl rfl)
  · exact .inl rfl
  · rcases f64_finite_or_inf hy with hyf | rfl | rfl
    · exact absurd (hpos ▸ hle) (not_le.mpr (f64Key_mem_finiteKeys hyf).2)
    · exact absurd hle (by rw [hpos, hneg]; decide)
    · exact .inr (.inl rfl)

/-! ## Rounding is monotone -/

/-- R12: numbers from here on round to an infinity, halfway between the greatest finite number and 2^1024. -/
def f64Overflow : ℚ := 2 ^ 1024 - 2 ^ 970

theorem f64Overflow_pos : 0 < f64Overflow := sub_pos.mpr (pow_lt_pow_right₀ one_lt_two (by decide))

theorem finitePattern_of_roundsTo {q : ℚ} {y : F64} (h : roundsTo q y) (hq : |q| < f64Overflow) : finitePattern y := by
  obtain ⟨-, hfin, -⟩ := h
  exact (hfin hq).1

theorem eq_inf_of_roundsTo {q : ℚ} {y : F64} (h : roundsTo q y) (hq : f64Overflow ≤ |q|) :
    y = f64Inf (decide (q < 0)) := by
  obtain ⟨hsign, -, hinf⟩ := h
  have hneg : f64Neg y = decide (q < 0) := by
    rw [Bool.eq_iff_iff, decide_eq_true_eq, ← negPattern_iff]
    exact hsign (abs_pos.mp (f64Overflow_pos.trans_le hq))
  rw [← hneg]
  exact f64_eq_inf (hinf hq)

theorem not_nanPattern_of_roundsTo {q : ℚ} {y : F64} (h : roundsTo q y) : ¬ nanPattern y := by
  rcases lt_or_ge |q| f64Overflow with hq | hq
  · exact not_nanPattern_of_finite (finitePattern_of_roundsTo h hq)
  · rw [eq_inf_of_roundsTo h hq]
    exact not_nanPattern_of_inf (infPattern_f64Inf _)

/-- A point at most as far from the upper of two points as from the lower one lies above their midpoint. -/
theorem midpoint_le_of_abs_sub_le {q u v : ℚ} (h : |q - u| ≤ |q - v|) (hvu : v < u) : (u + v) / 2 ≤ q := by
  by_contra! hq
  have hlt : |q - v| < u - q := abs_lt.mpr ⟨by linarith, by linarith⟩
  linarith [neg_abs_le (q - u)]

/-- A point at most as far from the lower of two points as from the upper one lies below their midpoint. -/
theorem le_midpoint_of_abs_sub_le {q u v : ℚ} (h : |q - v| ≤ |q - u|) (hvu : v < u) : q ≤ (u + v) / 2 := by
  by_contra! hq
  have hlt : |q - u| < q - v := abs_lt.mpr ⟨by linarith, by linarith⟩
  linarith [le_abs_self (q - v)]

/-- Between two even patterns lies another one. -/
theorem exists_finite_between {x y : F64} (hx : finitePattern x) (hy : finitePattern y) (hlt : f64Rat x < f64Rat y)
    (hxe : x.toNat % 2 = 0) (hye : y.toNat % 2 = 0) :
    ∃ z, finitePattern z ∧ f64Rat x < f64Rat z ∧ f64Rat z < f64Rat y := by
  have hkey := (f64Rat_lt_iff hx hy).mp hlt
  have hkx := f64Key_even hxe
  have hky := f64Key_even hye
  have hmem : f64Key x + 1 ∈ finiteKeys :=
    Set.ordConnected_Ioo.out (f64Key_mem_finiteKeys hx) (f64Key_mem_finiteKeys hy) ⟨by omega, by omega⟩
  have hz := finitePattern_ofKey hmem
  refine ⟨_, hz, (f64Rat_lt_iff hx hz).mpr ?_, (f64Rat_lt_iff hz hy).mpr ?_⟩ <;> rw [f64Key_ofKey hmem] <;> omega

/-- Finite patterns nearest to two numbers in order are in order. Two in the wrong order would be equally near to one
number, so both even, and a pattern between them would be nearer. -/
theorem f64Key_le_of_roundsTo {q q' : ℚ} {y y' : F64} (h : roundsTo q y) (h' : roundsTo q' y') (hle : q ≤ q')
    (hq : |q| < f64Overflow) (hq' : |q'| < f64Overflow) : f64Key y ≤ f64Key y' := by
  obtain ⟨-, hnear, -⟩ := h
  obtain ⟨-, hnear', -⟩ := h'
  obtain ⟨hfin, hnear⟩ := hnear hq
  obtain ⟨hfin', hnear'⟩ := hnear' hq'
  by_contra! hkey
  have hrat := (f64Rat_lt_iff hfin' hfin).mpr hkey
  obtain ⟨hy, hytie⟩ := hnear y' hfin'
  obtain ⟨hy', hytie'⟩ := hnear' y hfin
  have hlow := midpoint_le_of_abs_sub_le hy hrat
  have hhigh := le_midpoint_of_abs_sub_le hy' hrat
  obtain rfl : q = q' := by linarith
  have htie := le_antisymm hy hy'
  have heven := (hytie htie).resolve_left hrat.ne
  have heven' := (hytie' htie.symm).resolve_left hrat.ne'
  obtain ⟨z, hfinz, hyz, hzy⟩ := exists_finite_between hfin' hfin hrat heven' heven
  have hz := midpoint_le_of_abs_sub_le (hnear z hfinz).1 hzy
  linarith

/-- 00_scope.md R12: rounding is monotone. -/
theorem f64Le_of_roundsTo {q q' : ℚ} {y y' : F64} (h : roundsTo q y) (h' : roundsTo q' y') (hle : q ≤ q') :
    f64Le y y' = true := by
  have hpos := f64Overflow_pos
  have hnan := not_nanPattern_of_roundsTo h
  have hnan' := not_nanPattern_of_roundsTo h'
  rcases le_or_gt q (-f64Overflow) with hlow | hlow
  · rw [eq_inf_of_roundsTo h (le_abs.mpr (.inr (by linarith))), decide_eq_true (by linarith)]
    exact f64Le_of_neg_inf hnan'
  rcases le_or_gt f64Overflow q' with hhigh | hhigh
  · rw [eq_inf_of_roundsTo h' (le_abs.mpr (.inl hhigh)), decide_eq_false (by linarith)]
    exact f64Le_of_pos_inf hnan
  have hq : |q| < f64Overflow := abs_lt.mpr ⟨hlow, by linarith⟩
  have hq' : |q'| < f64Overflow := abs_lt.mpr ⟨by linarith, hhigh⟩
  exact (f64Le_iff y y').mpr ⟨hnan, hnan', f64Key_le_of_roundsTo h h' hle hq hq'⟩

/-- A nonzero number rounds to one pattern. -/
theorem roundsTo_unique {q : ℚ} {y y' : F64} (hq : q ≠ 0) (h : roundsTo q y) (h' : roundsTo q y') : y = y' := by
  obtain ⟨-, -, hle⟩ := (f64Le_iff y y').mp (f64Le_of_roundsTo h h' le_rfl)
  obtain ⟨-, -, hge⟩ := (f64Le_iff y' y).mp (f64Le_of_roundsTo h' h le_rfl)
  have hneg : f64Neg y = f64Neg y' := by
    rw [Bool.eq_iff_iff, ← negPattern_iff, ← negPattern_iff, h.1 hq, h'.1 hq]
  exact f64_eq_of_neg_of_key hneg (le_antisymm hle hge)

end Sys2Proof.Machine
end

section
/-! PROOF. The temperature outputs are finite (41_compensation.md R126), and the altitude is +0.0 at the reference and
does not increase with the pressure (R143). -/

namespace Sys2Proof.Machine

/-! ## Integers as patterns -/

theorem two_pow_53_lt_overflow : (2 : ℚ) ^ 53 < f64Overflow := by
  refine lt_sub_iff_add_lt.mpr ?_
  calc (2 : ℚ) ^ 53 + 2 ^ 970 < 2 ^ 970 + 2 ^ 970 := add_lt_add_left (pow_lt_pow_right₀ one_lt_two (by decide)) _
    _ = 2 ^ 971 := by rw [← mul_two, ← pow_succ]
    _ ≤ 2 ^ 1024 := pow_le_pow_right₀ one_le_two (by decide)

section
variable {i : Int} (h : i.natAbs < 2 ^ 53)
include h

theorem abs_cast_lt_overflow : |(i : ℚ)| < f64Overflow := by
  refine lt_trans ?_ two_pow_53_lt_overflow
  rw [← Int.cast_abs, Int.abs_eq_natAbs]
  exact_mod_cast h

theorem finitePattern_f64OfInt : finitePattern (f64OfInt i) :=
  finitePattern_of_roundsTo (f64OfInt_roundsTo i) (abs_cast_lt_overflow h)

/-- R12: `f64_of_int` is exact below 2^53. -/
theorem f64Rat_f64OfInt : f64Rat (f64OfInt i) = i := by
  obtain ⟨m, e, hval, hme⟩ := smallIntegersConvertExactly i h
  rw [f64Value_of_finite (finitePattern_f64OfInt h)] at hval
  injection hval with hneg hm he
  rw [f64Rat_eq, hneg, hm, he, hme, signRat_decide_mul_natAbs]

end

theorem f64OfInt_ten : f64OfInt 10 = f64Ten := by decide +kernel
theorem f64OfInt_one : f64OfInt 1 = f64One := by decide +kernel

/-! ## The temperature outputs -/

theorem s32_bounds (v : Int) : -2147483648 ≤ s32 v ∧ s32 v < 2147483648 :=
  ⟨Int.le_bmod (by decide), Int.bmod_lt (by decide)⟩

theorem tempDcOf_natAbs_lt (b5 : Int) : (tempDcOf b5).natAbs < 2 ^ 53 := by
  obtain ⟨hlo, hhi⟩ := s32_bounds (b5 + 8)
  unfold tempDcOf asr fdiv
  omega

/-- R126: a tenth of an integer below 2^53 does not overflow. -/
theorem finitePattern_div_ten {i : Int} (h : i.natAbs < 2 ^ 53) : finitePattern (f64Div (f64OfInt i) f64Ten) := by
  have hten : finitePattern f64Ten ∧ ¬ zeroPattern f64Ten := by
    unfold finitePattern zeroPattern
    decide
  have hround := f64Div_roundsTo (finitePattern_f64OfInt h) hten.1 hten.2
  refine finitePattern_of_roundsTo hround ?_
  rw [f64Rat_f64OfInt h, ← f64OfInt_ten, f64Rat_f64OfInt (by decide), abs_div]
  exact (div_le_self (abs_nonneg _) (by norm_num)).trans_lt (abs_cast_lt_overflow h)

/-- Settles O44: TEMP_DC has 28 bits, so its tenth is finite. -/
theorem temperatureOutputsAreFinite : Obligations.TemperatureOutputsAreFinite := by
  intro b5 _ _
  rw [← tempDcOf_eq_fdiv, f64IsFinite_iff]
  exact ⟨rfl, rfl, finitePattern_div_ten (tempDcOf_natAbs_lt b5)⟩

/-! ## Operations on an infinity -/

theorem f64Value_f64Inf (a : Bool) : f64Value (f64Inf a) = .inf a := by
  rw [f64Value_of_inf (infPattern_f64Inf a), f64Inf, f64Neg_f64Signed a (by decide)]

section
variable {x : F64} (hx : finitePattern x)
include hx

theorem f64Sub_inf (a : Bool) : f64Sub x (f64Inf a) = f64Inf (!a) := by
  rw [f64Sub, f64Value_of_finite hx, f64Value_f64Inf]
  rfl

theorem f64Mul_inf (h0 : ¬ zeroPattern x) (a : Bool) : f64Mul x (f64Inf a) = f64Inf (f64Neg x ^^ a) := by
  rw [f64Mul, f64Value_of_finite hx, f64Value_f64Inf]
  simp [f64ProdValue, f64OfValue, f64Mant_ne_zero h0]

theorem f64Div_inf (a : Bool) : f64Div x (f64Inf a) = f64Zero (f64Neg x ^^ a) := by
  rw [f64Div, f64Value_of_finite hx, f64Value_f64Inf]
  rfl

end

/-! ## Monotone operations -/

section
variable {x : F64} (hx : finitePattern x)
include hx

theorem f64Sub_not_nan {y : F64} (hy : ¬ nanPattern y) : ¬ nanPattern (f64Sub x y) := by
  have hinf (a : Bool) : ¬ nanPattern (f64Sub x (f64Inf a)) := by
    rw [f64Sub_inf hx]
    exact not_nanPattern_of_inf (infPattern_f64Inf _)
  rcases f64_finite_or_inf hy with hfin | rfl | rfl
  · exact not_nanPattern_of_roundsTo (f64Sub_roundsTo hx hfin)
  · exact hinf _
  · exact hinf _

/-- A difference does not increase with what is taken away. -/
theorem f64Sub_le_sub {y z : F64} (h : f64Le y z = true) : f64Le (f64Sub x z) (f64Sub x y) = true := by
  obtain ⟨hy, hz, hle⟩ := (f64Le_iff y z).mp h
  rcases f64Le_cases h with rfl | rfl | ⟨hyf, hzf⟩
  · rw [f64Sub_inf hx true]
    exact f64Le_of_pos_inf (f64Sub_not_nan hx hz)
  · rw [f64Sub_inf hx false]
    exact f64Le_of_neg_inf (f64Sub_not_nan hx hy)
  · refine f64Le_of_roundsTo (f64Sub_roundsTo hx hzf) (f64Sub_roundsTo hx hyf) ?_
    exact sub_le_sub_left ((f64Rat_le_iff hyf hzf).mpr hle) _

theorem f64Mul_not_nan (h0 : ¬ zeroPattern x) {y : F64} (hy : ¬ nanPattern y) : ¬ nanPattern (f64Mul x y) := by
  have hinf (a : Bool) : ¬ nanPattern (f64Mul x (f64Inf a)) := by
    rw [f64Mul_inf hx h0]
    exact not_nanPattern_of_inf (infPattern_f64Inf _)
  rcases f64_finite_or_inf hy with hfin | rfl | rfl
  · exact not_nanPattern_of_roundsTo (f64Mul_roundsTo hx hfin)
  · exact hinf _
  · exact hinf _

end

/-! ## Patterns above zero -/

section
variable {x : F64} (hpos : f64Lt (f64Zero false) x = true)
include hpos

theorem f64Key_pos : 0 < f64Key x := by
  obtain ⟨-, -, hkey⟩ := (f64Lt_iff _ x).mp hpos
  have hzero : f64Key (f64Zero false) = 0 := by decide
  rwa [hzero] at hkey

theorem f64Neg_of_pos : f64Neg x = false := by
  have hkey := f64Key_pos hpos
  by_contra hneg
  rw [f64Key, if_pos (by simpa using hneg)] at hkey
  omega

theorem f64Rat_pos (hx : finitePattern x) : 0 < f64Rat x := by
  obtain ⟨-, -, hkey⟩ := (f64Lt_iff _ x).mp hpos
  calc 0 = f64Rat (f64Zero false) := (f64Rat_f64Zero false).symm
    _ < f64Rat x := (f64Rat_lt_iff (finitePattern_f64Signed false (by decide)) hx).mpr hkey

end

theorem f64Rat_of_zeroPattern {x : F64} (h : zeroPattern x) : f64Rat x = 0 := by
  rw [f64Rat_eq, f64Mant_of_zeroPattern h]
  simp

theorem not_zeroPattern_of_f64Rat {x : F64} (h : f64Rat x ≠ 0) : ¬ zeroPattern x :=
  mt f64Rat_of_zeroPattern h

/-- A product with a positive finite number increases with the other factor. -/
theorem f64Mul_le_mul {x y z : F64} (hx : finitePattern x) (hpos : f64Lt (f64Zero false) x = true)
    (h : f64Le y z = true) : f64Le (f64Mul x y) (f64Mul x z) = true := by
  obtain ⟨hy, hz, hle⟩ := (f64Le_iff y z).mp h
  have hrat := f64Rat_pos hpos hx
  have h0 := not_zeroPattern_of_f64Rat hrat.ne'
  have hneg := f64Neg_of_pos hpos
  rcases f64Le_cases h with rfl | rfl | ⟨hyf, hzf⟩
  · rw [f64Mul_inf hx h0, hneg]
    exact f64Le_of_neg_inf (f64Mul_not_nan hx h0 hz)
  · rw [f64Mul_inf hx h0, hneg]
    exact f64Le_of_pos_inf (f64Mul_not_nan hx h0 hy)
  · refine f64Le_of_roundsTo (f64Mul_roundsTo hx hyf) (f64Mul_roundsTo hx hzf) ?_
    exact mul_le_mul_of_nonneg_left ((f64Rat_le_iff hyf hzf).mpr hle) hrat.le

/-- Division by a positive reference is multiplication by a factor that is not negative, rounded: by its inverse, or by
0 for an infinite one. -/
theorem f64Div_roundsTo_mul {ref : F64} (hpos : f64Lt (f64Zero false) ref = true) :
    ∃ c : ℚ, 0 ≤ c ∧ ∀ x, finitePattern x → roundsTo (f64Rat x * c) (f64Div x ref) := by
  obtain ⟨-, href, -⟩ := (f64Lt_iff _ ref).mp hpos
  have hinf (a : Bool) : ∀ x, finitePattern x → roundsTo (f64Rat x * 0) (f64Div x (f64Inf a)) := by
    intro x hx
    rw [f64Div_inf hx, mul_zero]
    exact roundsTo_zero _
  rcases f64_finite_or_inf href with hfin | rfl | rfl
  · have hrat := f64Rat_pos hpos hfin
    refine ⟨(f64Rat ref)⁻¹, (inv_pos.mpr hrat).le, fun x hx => ?_⟩
    rw [← div_eq_mul_inv]
    exact f64Div_roundsTo hx hfin (not_zeroPattern_of_f64Rat hrat.ne')
  · exact ⟨0, le_rfl, hinf _⟩
  · exact ⟨0, le_rfl, hinf _⟩

/-- For pressures in order, the quotients by a positive reference are in order and not below zero. -/
theorem f64Div_le_div {p1 p2 : Int} {ref : F64} (h0 : 0 ≤ p1) (h12 : p1 ≤ p2) (h2 : p2 < 2 ^ 53)
    (hpos : f64Lt (f64Zero false) ref = true) :
    f64Le (f64Zero false) (f64Div (f64OfInt p1) ref) = true ∧
      f64Le (f64Div (f64OfInt p1) ref) (f64Div (f64OfInt p2) ref) = true := by
  obtain ⟨c, hc, hround⟩ := f64Div_roundsTo_mul hpos
  have hround' (p : Int) (hp : p.natAbs < 2 ^ 53) : roundsTo (p * c) (f64Div (f64OfInt p) ref) := by
    rw [← f64Rat_f64OfInt hp]
    exact hround _ (finitePattern_f64OfInt hp)
  have hr1 := hround' p1 (by omega)
  refine ⟨f64Le_of_roundsTo (roundsTo_zero false) hr1 ?_, f64Le_of_roundsTo hr1 (hround' p2 (by omega)) ?_⟩
  · exact mul_nonneg (by exact_mod_cast h0) hc
  · exact mul_le_mul_of_nonneg_right (by exact_mod_cast h12) hc

/-- A nonzero number over itself is 1.0. -/
theorem f64Div_self {x : F64} (hx : finitePattern x) (h0 : f64Rat x ≠ 0) : f64Div x x = f64One := by
  have hquot := f64Div_roundsTo hx hx (not_zeroPattern_of_f64Rat h0)
  have hone := f64OfInt_roundsTo 1
  rw [div_self h0] at hquot
  rw [f64OfInt_one, Int.cast_one] at hone
  exact roundsTo_unique one_ne_zero hquot hone

/-! ## The altitude -/

/-- R140 with its exponent evaluated. -/
theorem altitude_eq (pow : F64 → F64 → F64) (p : Int) (ref : F64) :
    altitude pow p ref =
      f64Canon (f64Mul f64AltScale (f64Sub f64One (pow (f64Div (f64OfInt p) ref) f64AltExponent))) := by
  rw [altitude, altExponent_eq]

/-- Settles O48: the quotient is 1.0, and so is its power by L1. -/
theorem altitudeAtTheReferenceIsZero : Obligations.AltitudeAtTheReferenceIsZero := by
  intro p hlo hhi h0
  have hp : p.natAbs < 2 ^ 53 := by omega
  have hrat : f64Rat (f64OfInt p) ≠ 0 := by
    rw [f64Rat_f64OfInt hp]
    exact_mod_cast h0
  rw [altitude_eq, f64Div_self (finitePattern_f64OfInt hp) hrat, Config.pow.one_base]
  decide +kernel

/-- Settles O49: the quotient and, by L2, its power do not decrease with the pressure, and the rounded operations keep
the order. -/
theorem altitudeDoesNotIncreaseWithPressure : Obligations.AltitudeDoesNotIncreaseWithPressure := by
  intro p1 p2 ref h0 h12 h2 hpos
  have hone : finitePattern f64One := by unfold finitePattern; decide
  have hscale : finitePattern f64AltScale := by unfold finitePattern; decide
  obtain ⟨hq0, hq⟩ := f64Div_le_div h0 h12 (by omega) hpos
  have hpow := Config.pow.mono _ _ hq0 hq
  have halt := f64Mul_le_mul hscale (by decide) (f64Sub_le_sub hone hpow)
  obtain ⟨hnan2, hnan1, -⟩ := (f64Le_iff _ _).mp halt
  rwa [altitude_eq, altitude_eq, f64Canon_of_not_nan hnan2, f64Canon_of_not_nan hnan1]

end Sys2Proof.Machine
end

section
/-! PROOF. The bytes of a frame and their additive checksum (10_state.md R51; 42_singlewire.md R160, R161). -/

namespace Sys2Proof.Machine

/-! ## The bytes of a frame written out -/

/-- Bits above the last byte are bits of what stands before it. -/
theorem extractLsb'_above_byte {n : Nat} (x : BitVec n) (y : Byte) (k : Nat) :
    (x ++ y).extractLsb' (k + 8) 8 = x.extractLsb' k 8 :=
  BitVec.extractLsb'_append_eq_of_le (Nat.le_add_left 8 k)

section
variable (f0 f1 f2 f3 f4 : Byte)

@[simp] theorem frameF0_append : frameF0 (f0 ++ f1 ++ f2 ++ f3) = f0 :=
  (extractLsb'_above_byte _ f3 16).trans ((extractLsb'_above_byte _ f2 8).trans BitVec.extractLsb'_append_eq_left)

@[simp] theorem frameF1_append : frameF1 (f0 ++ f1 ++ f2 ++ f3) = f1 :=
  (extractLsb'_above_byte _ f3 8).trans ((extractLsb'_above_byte _ f2 0).trans BitVec.extractLsb'_append_eq_right)

@[simp] theorem frameF2_append : frameF2 (f0 ++ f1 ++ f2 ++ f3) = f2 :=
  (extractLsb'_above_byte _ f3 0).trans BitVec.extractLsb'_append_eq_right

@[simp] theorem frameF3_append : frameF3 (f0 ++ f1 ++ f2 ++ f3) = f3 := BitVec.extractLsb'_append_eq_right

/-- R160: the fifth byte is received last. -/
theorem shregF4_append : shregF4 (f0 ++ f1 ++ f2 ++ f3 ++ f4) = f4 := BitVec.extractLsb'_append_eq_right

/-- R160: FRAME0 is the bits above the fifth byte. -/
theorem shregFrame0_eq (b : BitVec 40) : shregFrame0 b = b.extractLsb' 8 32 := by
  simp only [shregFrame0, BitVec.extractLsb'_append_extractLsb'_eq_extractLsb']

theorem shregFrame0_append : shregFrame0 (f0 ++ f1 ++ f2 ++ f3 ++ f4) = f0 ++ f1 ++ f2 ++ f3 := by
  rw [shregFrame0_eq]
  exact BitVec.extractLsb'_append_eq_left

/-! ## The sum (R161) -/

theorem checksum_append : checksum (f0 ++ f1 ++ f2 ++ f3) = f0 + f1 + f2 + f3 := by
  simp only [checksum, frameF0_append, frameF1_append, frameF2_append, frameF3_append]

/-- R161: the sum of bytes is their sum mod 256. -/
theorem checksum_append_toNat :
    (checksum (f0 ++ f1 ++ f2 ++ f3)).toNat = (f0.toNat + f1.toNat + f2.toNat + f3.toNat) % 256 := by
  rw [checksum_append]
  simp only [BitVec.toNat_add, Nat.mod_add_mod]

/-- Changes of the bytes change the sum by their own sum. -/
theorem checksum_changed (d0 d1 d2 d3 : Byte) :
    checksum ((f0 + d0) ++ (f1 + d1) ++ (f2 + d2) ++ (f3 + d3)) =
      checksum (f0 ++ f1 ++ f2 ++ f3) + (d0 + d1 + d2 + d3) := by
  simp only [checksum_append]
  ring

theorem checksum_changed_ne (d0 d1 d2 d3 : Byte) (hd : d0 + d1 + d2 + d3 ≠ 0) :
    checksum ((f0 + d0) ++ (f1 + d1) ++ (f2 + d2) ++ (f3 + d3)) ≠ checksum (f0 ++ f1 ++ f2 ++ f3) := by
  rw [checksum_changed]
  exact fun h => hd (add_eq_left.mp h)

end

/-- Settles O50: the changed frame's sum is the old one and the sum of the changes. -/
theorem checksumDetectsOneByte : Obligations.ChecksumDetectsOneByte := by
  refine ⟨checksum_append_toNat, fun f0 f1 f2 f3 f4 d hd h => ?_, fun f0 f1 f2 f3 f4 d0 d1 d2 d3 d4 h hd => ?_,
    fun f0 f1 f2 f3 f4 d h => ?_, by decide⟩
  · subst h
    have hchanged := checksum_changed_ne f0 f1 f2 f3
    refine ⟨?_, ?_, ?_, ?_, by simpa using hd⟩
    · simpa using hchanged d 0 0 0 (by simpa using hd)
    · simpa using hchanged 0 d 0 0 (by simpa using hd)
    · simpa using hchanged 0 0 d 0 (by simpa using hd)
    · simpa using hchanged 0 0 0 d (by simpa using hd)
  · rw [checksum_changed, h, hd]
  · subst h
    simp only [checksum_append]
    refine ⟨?_, ?_, ?_, ?_, ?_, ?_, ?_⟩ <;> ring

end Sys2Proof.Machine
end

section
/-! PROOF. SW_READ's tick, an equation per phase (42_singlewire.md R150 to R166). -/

namespace Sys2Proof.Machine

section
variable {s : State}

theorem swReadTick_of_prep (hq : s.eng.seq = .prep) : swReadTick s = goto .startLow s := by
  simp only [swReadTick, hq]

theorem swReadTick_of_startLow (hq : s.eng.seq = .startLow) :
    swReadTick s = fixedPhase (startTicks s.eng.snap) .release s := by
  simp only [swReadTick, hq]

theorem swReadTick_of_release (hq : s.eng.seq = .release) :
    swReadTick s = fixedPhase s.eng.snap.releaseUs.toNat .ackLow s := by
  simp only [swReadTick, hq]

theorem swReadTick_of_ackLow (hq : s.eng.seq = .ackLow) : swReadTick s = levelWait .low (goto .ackHigh) s := by
  simp only [swReadTick, hq]

theorem swReadTick_of_ackHigh (hq : s.eng.seq = .ackHigh) : swReadTick s = levelWait .high (goto .bitEdge) s := by
  simp only [swReadTick, hq]

theorem swReadTick_of_bitEdge (hq : s.eng.seq = .bitEdge) : swReadTick s = levelWait .low (goto .bitDelay) s := by
  simp only [swReadTick, hq]

theorem swReadTick_of_bitDelay (hq : s.eng.seq = .bitDelay) : swReadTick s = bitDelayTick s := by
  simp only [swReadTick, hq]

theorem swReadTick_of_bitRestore (hq : s.eng.seq = .bitRestore) : swReadTick s = levelWait .high bitDone s := by
  simp only [swReadTick, hq]

theorem swReadTick_of_swFinish (hq : s.eng.seq = .swFinish) : swReadTick s = swFinish s := by
  simp only [swReadTick, hq]

/-- IDLE and COMPUTE are no phases of SW_READ (log 18). -/
theorem swReadTick_of_no_phase (hq : wirePhase s.eng.seq = false) : swReadTick s = count s := by
  unfold wirePhase at hq
  unfold swReadTick
  split at hq <;> simp_all

end

/-! ## A SW_READ in flight -/

theorem seq_of_readingIn {q : Seq} {s : State} (h : readingIn q s) : s.eng.seq = q := by
  obtain ⟨-, -, hq⟩ := h
  exact hq

theorem exec_swRead_of_readingIn {q : Seq} {s : State} (h : readingIn q s) :
    exec .swRead s = .next (swReadTick s) := by
  obtain ⟨hbusy, -, -⟩ := h
  exact exec_of_busy hbusy .swRead

end Sys2Proof.Machine
end

section
/-! PROOF. The end SW_READ and SW_CHECK share, in the bytes of the frame: the converted values where the sum matches,
the sum alone where it does not (42_singlewire.md R160 to R167). -/

namespace Sys2Proof.Machine

/-! ## The converted values (R162 to R164) -/

/-- R162: a raw value is two bytes, the first one high. -/
theorem tenths_append (hi lo : Byte) :
    tenths (hi ++ lo) = f64Div (f64OfInt (256 * hi.toNat + lo.toNat)) f64Ten := by
  have hraw : ((hi ++ lo).toNat : Int) = 256 * hi.toNat + lo.toNat := by
    rw [toNat_append_eq_add]
    omega
  rw [tenths, hraw]

/-- R162: SWRAW is the frame's four bytes. -/
theorem humRaw_append_tempRaw (frame0 : Word) : humRaw frame0 ++ tempRaw frame0 = frame0 := by
  simp only [humRaw, tempRaw, frameF0, frameF1, frameF2, frameF3,
    BitVec.extractLsb'_append_extractLsb'_eq_extractLsb']
  exact BitVec.extractLsb'_eq_self

/-- R162 to R164: each value is computed from its own two bytes. -/
theorem convert_append (unit : TempUnit) (f0 f1 f2 f3 : Byte) :
    let hum := f64Div (f64OfInt (256 * f0.toNat + f1.toNat)) f64Ten
    let cel := f64Div (f64OfInt (256 * f2.toNat + f3.toNat)) f64Ten
    convert unit (f0 ++ f1 ++ f2 ++ f3) =
      { swraw := f0 ++ f1 ++ f2 ++ f3, hum := hum, swunit := unit
        swtemp := (match unit with
          | .celsius => cel
          | .fahrenheit => f64Fma cel f64OnePointEight f64ThirtyTwo
          | .kelvin => f64Add cel f64KelvinOffset) } := by
  rw [convert, humRaw_append_tempRaw]
  simp only [humRaw, tempRaw, frameF0_append, frameF1_append, frameF2_append, frameF3_append]
  cases unit <;> simp only [convertTemp, tenths_append]

/-- Settles O51: the formula is the model's, and the three bit patterns are evaluated. -/
theorem fahrenheitIsFused : Obligations.FahrenheitIsFused :=
  ⟨fun _ => rfl, by decide +kernel, by decide +kernel, by decide +kernel⟩

/-! ## The shared end (R161, R166, R167) -/

section
variable (f0 f1 f2 f3 f4 : Byte) (s : State)

theorem checkAndConvert_of_match (hsum : (f0.toNat + f1.toNat + f2.toNat + f3.toNat) % 256 = f4.toNat) :
    checkAndConvert (f0 ++ f1 ++ f2 ++ f3) f4 s =
      ended .ok { s with swsum := f4, sw := convert s.eng.snap.unit (f0 ++ f1 ++ f2 ++ f3) } := by
  have hmatch : checksum (f0 ++ f1 ++ f2 ++ f3) = f4 :=
    BitVec.eq_of_toNat_eq ((checksum_append_toNat f0 f1 f2 f3).trans hsum)
  rcases checkAndConvert_cases (f0 ++ f1 ++ f2 ++ f3) f4 s with ⟨-, h⟩ | ⟨hne, -⟩
  · rw [h, commit_eq_ended, hmatch]
  · exact absurd hmatch hne

theorem checkAndConvert_of_mismatch {sum : Byte}
    (hsum : sum.toNat = (f0.toNat + f1.toNat + f2.toNat + f3.toNat) % 256) (hne : sum ≠ f4) :
    checkAndConvert (f0 ++ f1 ++ f2 ++ f3) f4 s = ended .checksum { s with swsum := sum } := by
  obtain rfl : checksum (f0 ++ f1 ++ f2 ++ f3) = sum :=
    BitVec.eq_of_toNat_eq ((checksum_append_toNat f0 f1 f2 f3).trans hsum.symm)
  rcases checkAndConvert_cases (f0 ++ f1 ++ f2 ++ f3) f4 s with ⟨heq, -⟩ | ⟨-, h⟩
  · exact absurd heq hne
  · rw [h, raise_eq_ended]

end

/-! ## SW_CHECK (R167) -/

theorem exec_swCheck {s : State} {frame0 : Word} {frame1 : Byte} (h : commitTick s) (h0 : s.eng.snap.frame0 = frame0)
    (h1 : s.eng.snap.frame1 = frame1) : exec .swCheck s = .next (checkAndConvert frame0 frame1 s) := by
  rw [exec_of_commitTick h rfl, swCheckCommit, h0, h1]

/-- Settles O18, by the shared end on a frame that passes. -/
theorem swCheckConvertsAPassingFrame : Obligations.SwCheckConvertsAPassingFrame := by
  intro s f0 f1 f2 f3 f4 h h0 h1 hsum
  rw [exec_swCheck h h0 h1, checkAndConvert_of_match f0 f1 f2 f3 f4 s hsum, convert_append]
  rfl

/-- Settles O19, by the shared end on a frame that fails. -/
theorem swCheckMismatchWritesOnlyTheSum : Obligations.SwCheckMismatchWritesOnlyTheSum := by
  intro s f0 f1 f2 f3 f4 sum h h0 h1 hsum hne
  rw [exec_swCheck h h0 h1, checkAndConvert_of_mismatch f0 f1 f2 f3 f4 s hsum hne]

/-! ## SW_READ's SW_FINISH (R160, R166) -/

/-- R160: the frame and ENDSTATE are written before the sum is checked. -/
theorem exec_swRead_of_swFinish {s : State} {f0 f1 f2 f3 f4 : Byte} (h : readingIn .swFinish s)
    (hbits : s.eng.shreg = f0 ++ f1 ++ f2 ++ f3 ++ f4) :
    exec .swRead s = .next (checkAndConvert (f0 ++ f1 ++ f2 ++ f3) f4 { s with
      frame := { frame0 := f0 ++ f1 ++ f2 ++ f3, frame1 := f4 }
      eng := { s.eng with endstate := .swFinish } }) := by
  rw [exec_swRead_of_readingIn h, swReadTick_of_swFinish (seq_of_readingIn h)]
  simp only [swFinish, hbits, shregFrame0_append, shregF4_append]

/-- Settles O20: the received bits are the frame, and the shared end converts it. -/
theorem swReadCommitsAPassingFrame : Obligations.SwReadCommitsAPassingFrame := by
  intro s f0 f1 f2 f3 f4 h hbits hsum
  rw [exec_swRead_of_swFinish h hbits, checkAndConvert_of_match f0 f1 f2 f3 f4 _ hsum, convert_append]
  rfl

/-- Settles O21: the received bits are the frame, and the shared end writes the sum. -/
theorem swReadKeepsAFailingFrame : Obligations.SwReadKeepsAFailingFrame := by
  intro s f0 f1 f2 f3 f4 sum h hbits hsum hne
  rw [exec_swRead_of_swFinish h hbits, checkAndConvert_of_mismatch f0 f1 f2 f3 f4 _ hsum hne]

end Sys2Proof.Machine
end

section
/-! PROOF. SW_READ tick by tick: the level waits, and the phases that take a fixed number of ticks whatever the line
shows (42_singlewire.md R150 to R156). -/

namespace Sys2Proof.Machine

/-! ## The level waits (R155, R156) -/

/-- The three outcomes of a tick of SW_READ in a phase that waits for the level `v`. -/
theorem exec_swRead_of_wait {q : Seq} {v : Level} {advance : State → State} {s : State} (h : readingIn q s)
    (hwait : swReadTick s = levelWait v advance s) :
    (s.eng.swI = v → exec .swRead s = .next (advance s)) ∧
    (s.eng.swI ≠ v → s.eng.snap.waitLimit ≠ 0 → s.eng.cnt.toNat + 1 = s.eng.snap.waitLimit.toNat →
      exec .swRead s = .next (ended .timeout { s with eng := { s.eng with endstate := q } })) ∧
    (s.eng.swI ≠ v → s.eng.snap.waitLimit = 0 ∨ s.eng.cnt.toNat + 1 ≠ s.eng.snap.waitLimit.toNat →
      exec .swRead s = .next (counted s)) := by
  rw [exec_swRead_of_readingIn h, hwait]
  obtain rfl := seq_of_readingIn h
  rcases levelWait_cases v advance s with ⟨hv, hw⟩ | ⟨hv, h0, hc, hw⟩ | ⟨hv, hlim, hw⟩ <;> rw [hw]
  · exact ⟨fun _ => rfl, fun hne => absurd hv hne, fun hne => absurd hv hne⟩
  · exact ⟨fun heq => absurd heq hv, fun _ _ _ => rfl, fun _ hno => (hno.elim h0 fun hne => hne hc).elim⟩
  · exact ⟨fun heq => absurd heq hv, fun _ h0 hc => absurd ⟨h0, hc⟩ hlim, fun _ _ => rfl⟩

/-- Settles O24: both phases are level waits. -/
theorem acknowledgeWaits : Obligations.AcknowledgeWaits := by
  rintro s q next v (hq | hq) h <;> cases hq
  · exact exec_swRead_of_wait h (swReadTick_of_ackLow (seq_of_readingIn h))
  · exact exec_swRead_of_wait h (swReadTick_of_ackHigh (seq_of_readingIn h))

/-- Settles O26: the wait for High, with the bit count at its end. -/
theorem bitRestoreCountsTheBit : Obligations.BitRestoreCountsTheBit := by
  intro s h
  obtain ⟨hhigh, htimeout, hcounts⟩ := exec_swRead_of_wait h (swReadTick_of_bitRestore (seq_of_readingIn h))
  exact ⟨hhigh, fun hlow => htimeout (by simp [hlow]), fun hlow => hcounts (by simp [hlow])⟩

/-! ## Ticks of a SW_READ in flight -/

theorem runTicks_cons {l : Level} {s t : State} (h : engineTick (sampled l s) = .next t) (ls : List Level) :
    runTicks (l :: ls) s = runTicks ls t := by
  rw [sampled] at h
  simp only [runTicks, h]

theorem runTicks_cons_reading {q : Seq} {s : State} (h : readingIn q s) (l : Level) (ls : List Level) :
    runTicks (l :: ls) s = runTicks ls (swReadTick (sampled l s)) := by
  obtain ⟨hbusy, hcmd, -⟩ := h
  refine runTicks_cons ?_ ls
  have hdecode : decode (sampled l s).eng.cmd = .ok .swRead := decode_eq_ok_iff.mpr hcmd
  exact (engineTick_of_decode (s := sampled l s) hbusy hdecode).trans
    (exec_of_busy (s := sampled l s) hbusy .swRead)

/-! ## The phases of a fixed length (R150, R151, R153) -/

/-- How many ticks a phase takes that does not wait for the line. -/
def fixedTicks (sn : Snap) : Seq → Option Nat
  | .startLow => some (startTicks sn)
  | .release => some sn.releaseUs.toNat
  | .bitDelay => some 40
  | .idle | .prep | .ackLow | .ackHigh | .bitEdge | .bitRestore | .swFinish | .compute => none

/-- What such a phase does at its last tick. -/
def fixedEnd (q : Seq) (s : State) : State :=
  match q with
  | .startLow => goto .release s
  | .release => goto .ackLow s
  | .bitDelay => goto .bitRestore { s with eng := { s.eng with shreg := shiftIn s.eng.shreg s.eng.swI } }
  | .idle | .prep | .ackLow | .ackHigh | .bitEdge | .bitRestore | .swFinish | .compute => s

theorem fixedTicks_lt {sn : Snap} {q : Seq} {n : Nat} (h : fixedTicks sn q = some n) : n < 2 ^ 32 := by
  have hstart := sn.startMs.isLt
  have hrelease := sn.releaseUs.isLt
  cases q <;> cases h
  · unfold startTicks; omega
  · omega
  · decide

theorem swReadTick_of_fixed {s : State} {n : Nat} (hn : fixedTicks s.eng.snap s.eng.seq = some n) :
    swReadTick s = if s.eng.cnt.toNat + 1 = n then fixedEnd s.eng.seq s else count s := by
  have h39 : s.eng.cnt = 39 ↔ s.eng.cnt.toNat + 1 = 40 := by bv_omega
  cases hq : s.eng.seq <;> rw [hq] at hn <;> cases hn
  · rw [swReadTick_of_startLow hq, fixedPhase, fixedEnd]
  · rw [swReadTick_of_release hq, fixedPhase, fixedEnd]
  · simp only [swReadTick_of_bitDelay hq, bitDelayTick, h39, fixedEnd]

/-- `s` after `k` ticks in its phase, the last of them with the sample `l`. -/
def waited (k : Nat) (l : Level) (s : State) : State :=
  { s with eng := { s.eng with cnt := s.eng.cnt + BitVec.ofNat 32 k, swI := l } }

theorem waited_zero (s : State) : waited 0 s.eng.swI s = s := by
  simp only [waited, BitVec.add_zero]

/-- A tick that counts, before the others. -/
theorem waited_count_sampled (k : Nat) (l l' : Level) (s : State) :
    waited k l' (count (sampled l s)) = waited (k + 1) l' s := by
  have hcnt : s.eng.cnt + 1 + BitVec.ofNat 32 k = s.eng.cnt + BitVec.ofNat 32 (k + 1) := by
    rw [Nat.add_comm k, BitVec.ofNat_add, BitVec.add_assoc]
    rfl
  simp only [waited, count, sampled, hcnt]

section
variable {q : Seq} {s : State} {n : Nat} (h : readingIn q s) (hn : fixedTicks s.eng.snap q = some n)
include h hn

/-- Until its last tick the phase counts, whatever the line shows. -/
theorem runTicks_within_phase {ls : List Level} (hlen : s.eng.cnt.toNat + ls.length < n) :
    ∃ l, runTicks ls s = .next (waited ls.length l s) := by
  induction ls generalizing s with
  | nil => exact ⟨s.eng.swI, by rw [List.length_nil, waited_zero, runTicks]⟩
  | cons l ls ih =>
    rw [List.length_cons] at hlen
    have hn32 := fixedTicks_lt hn
    have htick : swReadTick (sampled l s) = count (sampled l s) := by
      rw [← seq_of_readingIn h] at hn
      exact (swReadTick_of_fixed (s := sampled l s) hn).trans (if_neg (by simp only [sampled]; omega))
    have hcnt : (count (sampled l s)).eng.cnt.toNat = s.eng.cnt.toNat + 1 := by
      simp only [count_eng, sampled]
      bv_omega
    obtain ⟨l', hrun⟩ := ih (s := count (sampled l s)) h hn (by omega)
    exact ⟨l', by rw [runTicks_cons_reading h, htick, hrun, waited_count_sampled, List.length_cons]⟩

/-- The last tick of the phase, `n` ticks after it was entered. -/
theorem runTicks_whole_phase (hcnt : s.eng.cnt = 0) {ls : List Level} (hlen : ls.length + 1 = n) (l : Level) :
    ∃ l', runTicks (ls ++ [l]) s = .next (fixedEnd q (sampled l (waited ls.length l' s))) := by
  have hn32 := fixedTicks_lt hn
  obtain ⟨l', hrun⟩ := runTicks_within_phase h hn (ls := ls) (by simp only [hcnt]; bv_omega)
  have hlast : (sampled l (waited ls.length l' s)).eng.cnt.toNat + 1 = n := by
    simp only [sampled, waited, hcnt]
    bv_omega
  have htick : swReadTick (sampled l (waited ls.length l' s)) = fixedEnd q (sampled l (waited ls.length l' s)) := by
    obtain rfl := seq_of_readingIn h
    exact (swReadTick_of_fixed (s := sampled l (waited ls.length l' s)) hn).trans (if_pos hlast)
  exact ⟨l', by rw [runTicks_append hrun, runTicks_cons_reading (s := waited ls.length l' s) h, htick, runTicks]⟩

end

theorem cnt_zero_add {s : State} (hcnt : s.eng.cnt = 0) (k : Nat) : s.eng.cnt.toNat + k = k := by
  rw [hcnt]
  exact Nat.zero_add k

/-- Settles O23: PREP is one tick, and START_LOW and RELEASE are phases of a fixed length. -/
theorem startSignalTiming : Obligations.StartSignalTiming := by
  refine ⟨fun s h => ?_, fun s h => ?_, fun s h => ?_, fun s ls h hcnt hlen => ?_, fun s ls l h hcnt hlen => ?_,
    fun s ls h hcnt hlen => ?_, fun s ls l h hcnt hlen => ?_⟩
  · obtain ⟨hport, -⟩ := linePortFollowsSeq s
    obtain ⟨hoe, ho⟩ := hport (seq_of_readingIn h)
    refine ⟨hoe, ho, ?_⟩
    rw [exec_swRead_of_readingIn h, swReadTick_of_prep (seq_of_readingIn h)]
    rfl
  · rw [exec_swRead_of_readingIn h, swReadTick_of_startLow (seq_of_readingIn h)]
    rfl
  · rw [exec_swRead_of_readingIn h, swReadTick_of_release (seq_of_readingIn h)]
    rfl
  · obtain ⟨l, hrun⟩ := runTicks_within_phase h rfl (by rwa [cnt_zero_add hcnt])
    obtain ⟨-, hport, -⟩ := linePortFollowsSeq (waited ls.length l s)
    exact ⟨_, hrun, h, hport (seq_of_readingIn h)⟩
  · obtain ⟨l', hrun⟩ := runTicks_whole_phase h rfl hcnt hlen l
    exact hrun
  · obtain ⟨l, hrun⟩ := runTicks_within_phase h rfl (by rwa [cnt_zero_add hcnt])
    obtain ⟨-, -, hport, -⟩ := linePortFollowsSeq (waited ls.length l s)
    exact ⟨_, hrun, h, hport (seq_of_readingIn h)⟩
  · obtain ⟨l', hrun⟩ := runTicks_whole_phase h rfl hcnt hlen l
    exact ⟨hrun, rfl⟩

theorem levelBit_eq_ite (l : Level) : levelBit l = if l = .high then 1#1 else 0#1 := by cases l <;> rfl

/-- Settles O25: BIT_EDGE is a level wait, and BIT_DELAY a phase of 40 ticks. -/
theorem bitSampledFortyTicksAfterTheEdge : Obligations.BitSampledFortyTicksAfterTheEdge := by
  refine ⟨fun s h hlow => ?_, fun s h hhigh => ?_, fun s h hhigh => ?_, fun s h hne => ?_,
    fun s ls l h hcnt hlen => ?_⟩
  · obtain ⟨hseen, -, -⟩ := exec_swRead_of_wait h (swReadTick_of_bitEdge (seq_of_readingIn h))
    exact hseen hlow
  · obtain ⟨-, htimeout, -⟩ := exec_swRead_of_wait h (swReadTick_of_bitEdge (seq_of_readingIn h))
    exact htimeout (by simp [hhigh])
  · obtain ⟨-, -, hcounts⟩ := exec_swRead_of_wait h (swReadTick_of_bitEdge (seq_of_readingIn h))
    exact hcounts (by simp [hhigh])
  · rw [exec_swRead_of_readingIn h, swReadTick_of_bitDelay (seq_of_readingIn h)]
    rcases bitDelayTick_cases s with ⟨heq, -⟩ | ⟨-, htick⟩
    · exact absurd heq hne
    · rw [htick]
      rfl
  · obtain ⟨l', hrun⟩ := runTicks_whole_phase h rfl hcnt (by rw [hlen]) l
    rw [hrun, ← levelBit_eq_ite]
    rfl

end Sys2Proof.Machine
end

section
/-! PROOF. Whole runs of a SW_READ. What a tick of it does is decided by its engine alone, so its outcome is a function
of its snapshot and its samples (42_singlewire.md R165); and each tick brings its commit at most one tick nearer (R157).
-/

namespace Sys2Proof.Machine

/-! ## The time left (R157) -/

/-- A SW_READ at the position `e` takes at least this many ticks more, unless it times out: the rest of the start
signal, one tick for every wait, 40 for every bit, and SW_FINISH. -/
def ticksLeft (e : Engine) : Nat :=
  match e.seq with
  | .prep => startTicks e.snap + e.snap.releaseUs.toNat + 42 * (40 - e.bitidx) + 4
  | .startLow => startTicks e.snap - e.cnt.toNat + e.snap.releaseUs.toNat + 42 * (40 - e.bitidx) + 3
  | .release => e.snap.releaseUs.toNat - e.cnt.toNat + 42 * (40 - e.bitidx) + 3
  | .ackLow => 42 * (40 - e.bitidx) + 3
  | .ackHigh => 42 * (40 - e.bitidx) + 2
  | .bitEdge => 42 * (40 - e.bitidx) + 1
  | .bitDelay => 42 * (40 - e.bitidx) - e.cnt.toNat
  | .bitRestore => 42 * (39 - e.bitidx) + 2
  | .swFinish => 1
  | .idle | .compute => 0

theorem toNat_add_one_le (c : BitVec 32) : (c + 1).toNat ≤ c.toNat + 1 := by bv_omega

/-- A tick that counts uses up one tick at most. -/
theorem ticksLeft_counted (e : Engine) : ticksLeft e ≤ ticksLeft { e with cnt := e.cnt + 1 } + 1 := by
  have hcnt := toNat_add_one_le e.cnt
  unfold ticksLeft
  cases e.seq <;> dsimp only <;> omega

/-! ## A tick (R165, R166) -/

/-- The engines agree but for ENDSTATE, which no tick of SW_READ reads. -/
def SamePosition (s s' : State) : Prop := s'.eng = { s.eng with endstate := s'.eng.endstate }

/-- What a tick of a SW_READ at the position `e` does to whatever state it is made in. A move uses up one of the ticks
left at most, and only SW_FINISH ends the read by itself. -/
inductive ReadAction (e : Engine) : (State → State) → Prop
  | counts : ReadAction e count
  | moves (q : Seq) (k : Nat) (b : BitVec 40)
      (hleft : ticksLeft e ≤ ticksLeft { e with seq := q, cnt := 0, bitidx := k, shreg := b } + 1) :
      ReadAction e fun s => { s with eng := { s.eng with seq := q, cnt := 0, bitidx := k, shreg := b } }
  | timesOut : ReadAction e timeoutWait
  | finishes (hq : e.seq = .swFinish) : ReadAction e swFinish

/-- The tick `tick` does one thing in all states at the position of `s`. -/
def ActsAlike (s : State) (tick : State → State) : Prop :=
  ∃ f, ReadAction s.eng f ∧ ∀ s', SamePosition s s' → tick s' = f s'

section
variable {s : State}

theorem actsAlike_count : ActsAlike s count := ⟨count, .counts, fun _ _ => rfl⟩

/-- A condition on the position decides alike in all states at it. -/
theorem actsAlike_ite {c : State → Prop} [DecidablePred c] {f g : State → State}
    (hc : ∀ s', SamePosition s s' → (c s' ↔ c s)) (hf : c s → ActsAlike s f) (hg : ¬ c s → ActsAlike s g) :
    ActsAlike s fun s' => if c s' then f s' else g s' := by
  by_cases h : c s
  · obtain ⟨a, ha, hfa⟩ := hf h
    exact ⟨a, ha, fun s' hs => (if_pos ((hc s' hs).mpr h)).trans (hfa s' hs)⟩
  · obtain ⟨a, ha, hga⟩ := hg h
    exact ⟨a, ha, fun s' hs => (if_neg (mt (hc s' hs).mp h)).trans (hga s' hs)⟩

theorem actsAlike_goto {q : Seq} (hleft : ticksLeft s.eng ≤ ticksLeft { s.eng with seq := q, cnt := 0 } + 1) :
    ActsAlike s (goto q) :=
  ⟨_, .moves q s.eng.bitidx s.eng.shreg hleft, fun s' hs => by simp only [goto]; rw [hs]⟩

/-- The length of the phase is read from the snapshot. -/
theorem actsAlike_fixedPhase {n : Snap → Nat} {q : Seq} (hleft : s.eng.cnt.toNat + 1 = n s.eng.snap →
    ticksLeft s.eng ≤ ticksLeft { s.eng with seq := q, cnt := 0 } + 1) :
    ActsAlike s fun s' => fixedPhase (n s'.eng.snap) q s' :=
  actsAlike_ite (fun s' hs => by rw [hs]) (fun hc => actsAlike_goto (hleft hc)) fun _ => actsAlike_count

theorem actsAlike_levelWait {v : Level} {advance : State → State} (h : ActsAlike s advance) :
    ActsAlike s (levelWait v advance) :=
  actsAlike_ite (fun s' hs => by rw [hs]) (fun _ => h) fun _ =>
    actsAlike_ite (fun s' hs => by rw [hs]) (fun _ => ⟨_, .timesOut, fun _ _ => rfl⟩) fun _ => actsAlike_count

theorem actsAlike_bitDelayTick (hq : s.eng.seq = .bitDelay) : ActsAlike s bitDelayTick := by
  refine actsAlike_ite (fun s' hs => by rw [hs]) (fun hc => ?_) fun _ => actsAlike_count
  refine ⟨_, .moves .bitRestore s.eng.bitidx (shiftIn s.eng.shreg s.eng.swI) ?_, fun s' hs => ?_⟩
  · have h39 : s.eng.cnt.toNat = 39 := by simp [hc]
    simp only [ticksLeft, hq]
    omega
  · simp only [goto]
    rw [hs]

theorem actsAlike_bitDone (hq : s.eng.seq = .bitRestore) : ActsAlike s bitDone := by
  refine ⟨_, .moves (if s.eng.bitidx + 1 = 40 then .swFinish else .bitEdge) (s.eng.bitidx + 1) s.eng.shreg ?_,
    fun s' hs => ?_⟩
  · simp only [ticksLeft, hq]
    split_ifs <;> dsimp only <;> omega
  · simp only [bitDone, goto]
    rw [hs]

/-- SW_READ's tick is that of its phase. -/
theorem actsAlike_swReadTick {q : Seq} {tick : State → State} (hq : s.eng.seq = q)
    (htick : ∀ {s' : State}, s'.eng.seq = q → swReadTick s' = tick s') (h : ActsAlike s tick) :
    ActsAlike s swReadTick := by
  obtain ⟨f, hf, hact⟩ := h
  exact ⟨f, hf, fun s' hs => (htick (by rw [hs, ← hq])).trans (hact s' hs)⟩

end

/-- R165: what a tick of SW_READ does is decided by its position, phase by phase. -/
theorem swReadTick_actsAlike (s : State) : ActsAlike s swReadTick := by
  cases hq : s.eng.seq with
  | prep => exact actsAlike_swReadTick hq swReadTick_of_prep (actsAlike_goto (by simp [ticksLeft, hq]))
  | startLow =>
    refine actsAlike_swReadTick hq swReadTick_of_startLow (actsAlike_fixedPhase fun hlast => ?_)
    simp only [ticksLeft, hq, BitVec.ofNat_eq_ofNat, BitVec.toNat_ofNat]
    omega
  | release =>
    refine actsAlike_swReadTick hq swReadTick_of_release
      (actsAlike_fixedPhase (n := fun sn => sn.releaseUs.toNat) fun hlast => ?_)
    simp only [ticksLeft, hq]
    omega
  | ackLow =>
    refine actsAlike_swReadTick hq swReadTick_of_ackLow (actsAlike_levelWait (actsAlike_goto ?_))
    simp only [ticksLeft, hq]
    omega
  | ackHigh =>
    refine actsAlike_swReadTick hq swReadTick_of_ackHigh (actsAlike_levelWait (actsAlike_goto ?_))
    simp only [ticksLeft, hq]
    omega
  | bitEdge =>
    exact actsAlike_swReadTick hq swReadTick_of_bitEdge
      (actsAlike_levelWait (actsAlike_goto (by simp [ticksLeft, hq])))
  | bitDelay => exact actsAlike_swReadTick hq swReadTick_of_bitDelay (actsAlike_bitDelayTick hq)
  | bitRestore =>
    exact actsAlike_swReadTick hq swReadTick_of_bitRestore (actsAlike_levelWait (actsAlike_bitDone hq))
  | swFinish => exact actsAlike_swReadTick hq swReadTick_of_swFinish ⟨_, .finishes hq, fun _ _ => rfl⟩
  | idle => exact actsAlike_swReadTick hq (fun h => swReadTick_of_no_phase (by rw [h]; rfl)) actsAlike_count
  | compute => exact actsAlike_swReadTick hq (fun h => swReadTick_of_no_phase (by rw [h]; rfl)) actsAlike_count

/-! ## Runs -/

/-- After its commit SWCP only counts and samples. -/
theorem runTicks_of_idle {s : State} (hb : s.status.busy = false) (ls : List Level) :
    ∃ c l, runTicks ls s = .next { s with eng := { s.eng with cnt := c, swI := l } } := by
  induction ls generalizing s with
  | nil => exact ⟨s.eng.cnt, s.eng.swI, rfl⟩
  | cons l ls ih =>
    obtain ⟨c, l', hrun⟩ := ih (s := counted (sampled l s)) hb
    exact ⟨c, l', (runTicks_cons (engineTick_of_idle (s := sampled l s) hb) ls).trans hrun⟩

theorem exec_swRead_of_idle {s a : State} (hb : s.status.busy = false) (h : exec .swRead s = .next a) :
    a = accept 0x00000010 s :=
  (Host.Outcome.next.inj ((exec_of_idle hb .swRead).symm.trans h)).symm

theorem readingIn_accept (s : State) : readingIn .prep (accept 0x00000010 s) := ⟨rfl, rfl, rfl⟩

/-! ## Two runs with equal snapshots and samples (R165) -/

/-- Two SW_READs are in flight at one position. Their last samples may differ, since each tick takes a new one. -/
structure ReadingAlike (s s' : State) : Prop where
  left : readingIn s.eng.seq s
  right : readingIn s'.eng.seq s'
  position : s'.eng = { s.eng with endstate := s'.eng.endstate, swI := s'.eng.swI }

/-- Two SW_READs have committed values that agree as far as R165 promises it. -/
structure CommittedAlike (t t' : State) : Prop where
  idle : t.status.busy = false
  idle' : t'.status.busy = false
  seq : t.eng.seq = t'.eng.seq
  bitidx : t.eng.bitidx = t'.eng.bitidx
  errcode : t.status.errcode = t'.status.errcode
  endstate : t.eng.endstate = t'.eng.endstate
  frame : t.status.errcode ≠ .timeout → t.frame = t'.frame ∧ t.swsum = t'.swsum
  results : t.status.errcode = .ok → t.sw = t'.sw

theorem ReadingAlike.samePosition {s s' : State} (h : ReadingAlike s s') (l : Level) :
    SamePosition (sampled l s) (sampled l s') := by
  simp only [SamePosition, sampled]
  rw [h.position]

/-- A commit agrees where what was written before it does. -/
theorem committedAlike_commit {e : ErrCode} {u u' : State} (hbits : u.eng.bitidx = u'.eng.bitidx)
    (hend : u.eng.endstate = u'.eng.endstate) (hframe : e ≠ .timeout → u.frame = u'.frame ∧ u.swsum = u'.swsum)
    (hres : e = .ok → u.sw = u'.sw) : CommittedAlike (commit e u) (commit e u') :=
  ⟨rfl, rfl, rfl, hbits, rfl, hend, hframe, hres⟩

theorem committedAlike_checkAndConvert (f0 : Word) (f4 : Byte) {u u' : State} (hbits : u.eng.bitidx = u'.eng.bitidx)
    (hend : u.eng.endstate = u'.eng.endstate) (hframe : u.frame = u'.frame) (hsnap : u.eng.snap = u'.eng.snap) :
    CommittedAlike (checkAndConvert f0 f4 u) (checkAndConvert f0 f4 u') := by
  by_cases hsum : checksum f0 = f4
  · simp only [checkAndConvert, if_pos hsum, hsnap]
    exact committedAlike_commit hbits hend (fun _ => ⟨hframe, rfl⟩) fun _ => rfl
  · simp only [checkAndConvert, if_neg hsum]
    exact committedAlike_commit hbits hend (fun _ => ⟨hframe, rfl⟩) nofun

section
variable {s s' : State} (h : SamePosition s s')
include h

theorem SamePosition.timeoutWait : CommittedAlike (timeoutWait s) (timeoutWait s') :=
  committedAlike_commit (by rw [h]) (by rw [h]) (fun hne => absurd rfl hne) nofun

theorem SamePosition.swFinish : CommittedAlike (swFinish s) (swFinish s') := by
  have hbits : s'.eng.shreg = s.eng.shreg := by rw [h]
  simp only [Machine.swFinish, hbits]
  exact committedAlike_checkAndConvert _ _ (by rw [h]) rfl rfl (by rw [h])

end

theorem CommittedAlike.run {u u' : State} (h : CommittedAlike u u') (ls : List Level) :
    ∃ t t', runTicks ls u = .next t ∧ runTicks ls u' = .next t' ∧ CommittedAlike t t' := by
  obtain ⟨c, l, hrun⟩ := runTicks_of_idle h.idle ls
  obtain ⟨c', l', hrun'⟩ := runTicks_of_idle h.idle' ls
  exact ⟨_, _, hrun, hrun', { h with }⟩

/-- Given the same samples, the two stay at one position until they commit at one tick. -/
theorem ReadingAlike.run {s s' : State} (h : ReadingAlike s s') (ls : List Level) :
    ∃ t t', runTicks ls s = .next t ∧ runTicks ls s' = .next t' ∧
      (ReadingAlike t t' ∨ CommittedAlike t t') := by
  induction ls generalizing s s' with
  | nil => exact ⟨s, s', rfl, rfl, .inl h⟩
  | cons l ls ih =>
    have hpos := h.samePosition l
    obtain ⟨f, hf, hact⟩ := swReadTick_actsAlike (sampled l s)
    rw [runTicks_cons_reading h.left, runTicks_cons_reading h.right, hact _ rfl, hact _ hpos]
    obtain ⟨⟨hb, hcmd, -⟩, ⟨hb', hcmd', -⟩, -⟩ := h
    cases hf with
    | counts => exact ih ⟨⟨hb, hcmd, rfl⟩, ⟨hb', hcmd', rfl⟩, by simp only [count]; rw [hpos]⟩
    | moves q k b => exact ih ⟨⟨hb, hcmd, rfl⟩, ⟨hb', hcmd', rfl⟩, by dsimp only; rw [hpos]⟩
    | timesOut =>
      obtain ⟨t, t', hrun, hrun', hcommitted⟩ := hpos.timeoutWait.run ls
      exact ⟨t, t', hrun, hrun', .inr hcommitted⟩
    | finishes =>
      obtain ⟨t, t', hrun, hrun', hcommitted⟩ := hpos.swFinish.run ls
      exact ⟨t, t', hrun, hrun', .inr hcommitted⟩

/-- R194, R165: acceptance with equal snapshots is the position that starts PREP. -/
theorem readingAlike_accept {s s' : State} (h : snapshot s = snapshot s') :
    ReadingAlike (accept 0x00000010 s) (accept 0x00000010 s') :=
  ⟨readingIn_accept s, readingIn_accept s', by simp only [accept_eng_swRead, h]⟩

/-- Settles O55: equal snapshots start at one position, and the runs stay at one until they commit. -/
theorem swReadDependsOnSnapshotAndLine : Obligations.SwReadDependsOnSnapshotAndLine := by
  intro s s' a a' ls hb hb' ha ha' hsnap
  obtain rfl := exec_swRead_of_idle hb ha
  obtain rfl := exec_swRead_of_idle hb' ha'
  rw [accept_eng_snap, accept_eng_snap] at hsnap
  obtain ⟨t, t', hrun, hrun', h | h⟩ := (readingAlike_accept hsnap).run ls
  · obtain ⟨⟨hbusy, -⟩, ⟨hbusy', -⟩, hpos⟩ := h
    refine ⟨rfl, t, t', hrun, hrun', hbusy.trans hbusy'.symm, by rw [hpos], by rw [hpos], fun hidle => ?_⟩
    rw [hbusy] at hidle
    cases hidle
  · exact ⟨rfl, t, t', hrun, hrun', h.idle.trans h.idle'.symm, h.seq, h.bitidx, fun _ =>
      ⟨h.errcode, h.endstate, h.frame, h.results⟩⟩

/-! ## The least time of a SW_READ (R157) -/

/-- With fewer ticks than are left the SW_READ is in flight, unless it has timed out. -/
theorem runTicks_lt_ticksLeft {s : State} (h : readingIn s.eng.seq s) {ls : List Level}
    (hlen : ls.length < ticksLeft s.eng) :
    ∃ t, runTicks ls s = .next t ∧ (t.status.busy = true ∨ t.status.errcode = .timeout) := by
  induction ls generalizing s with
  | nil =>
    obtain ⟨hb, -, -⟩ := h
    exact ⟨s, rfl, .inl hb⟩
  | cons l ls ih =>
    obtain ⟨f, hf, hact⟩ := swReadTick_actsAlike (sampled l s)
    rw [runTicks_cons_reading h, hact _ rfl]
    rw [List.length_cons] at hlen
    have hsame : ticksLeft (sampled l s).eng = ticksLeft s.eng := rfl
    obtain ⟨hb, hcmd, -⟩ := h
    cases hf with
    | counts =>
      have hleft := ticksLeft_counted (sampled l s).eng
      exact ih (s := count (sampled l s)) ⟨hb, hcmd, rfl⟩ (by simp only [count_eng]; omega)
    | moves q k b hleft => exact ih ⟨hb, hcmd, rfl⟩ (by dsimp only; omega)
    | timesOut =>
      obtain ⟨c, l', hrun⟩ := runTicks_of_idle (s := timeoutWait (sampled l s)) rfl ls
      exact ⟨_, hrun, .inr rfl⟩
    | finishes hq =>
      have hlast : ticksLeft (sampled l s).eng = 1 := by simp only [ticksLeft, hq]
      omega

/-- R157: the least time of a SW_READ that completes its frame. -/
theorem ticksLeft_accept (s : State) :
    ticksLeft (accept 0x00000010 s).eng = s.host.startMs.toNat * 1000 + s.host.releaseUs.toNat + 1684 := by
  rw [accept_eng_swRead]
  rfl

/-- Settles O58: acceptance leaves that many ticks, and each tick uses up one at most. -/
theorem completedSwReadTakesItsTime : Obligations.CompletedSwReadTakesItsTime := by
  intro s a ls hb ha _ _ hlen
  obtain rfl := exec_swRead_of_idle hb ha
  exact runTicks_lt_ticksLeft (readingIn_accept s) (by rwa [ticksLeft_accept])

end Sys2Proof.Machine
end

section
/-! PROOF. NOP's tick (43_control.md R180). -/

namespace Sys2Proof.Machine

/-- R180: NOP has no result rule and no wait for `P_COMP_LATENCY`, so its tick is the commit alone. -/
theorem tickOf_nop (s : State) : tickOf .nop s = commit .ok s := rfl

/-- Settles O10: a tick of NOP in flight is the commit with ERRCODE 0. -/
theorem nopCommitsWithSuccess : Obligations.NopCommitsWithSuccess := fun s hbusy => by
  rw [exec_of_busy hbusy, tickOf_nop, commit_eq_ended]

end Sys2Proof.Machine
end

section
/-! PROOF. Acceptance: what a CMD write does at BUSY = 0 and at BUSY = 1, that nothing else starts a command, and the
tick that ends an illegal word (60_exceptions.md R194, R195, R198). -/

namespace Sys2Proof.Machine

/-! ## A CMD write (R194, R195) -/

theorem writeCmd_of_busy {w : Word} {s : State} (hb : s.status.busy = true) :
    writeCmd w s = .next (dropCommand s) := by
  simp only [writeCmd, hb, if_true]

/-- R194: at BUSY = 0 every word is accepted, legal or not. -/
theorem writeCmd_of_idle {w : Word} {s : State} (hb : s.status.busy = false) : writeCmd w s = .next (accept w s) := by
  cases hd : decode w with
  | ok i => rw [writeCmd_of_decode hb hd, exec_of_idle hb, ← eq_encode_of_decode hd]
  | error e => simp only [writeCmd, hb, hd, Bool.false_eq_true, if_false]

theorem step_of_accept {s : State} {w : Word} {rest : List Event} (hr : s.rstN = true) (hb : s.status.busy = false)
    (hi : s.inputs = .hostWrite 0x010 4 w :: rest) :
    step s = .next (accept w { s with inputs := rest, resp := .ack }) :=
  (step_of_cmdWrite hr hi).trans (writeCmd_of_idle hb)

theorem eq_accept_of_exec {s a : State} {i : Instr} (hb : s.status.busy = false) (h : exec i s = .next a) :
    a = accept (encode i) s :=
  (Host.Outcome.next.inj ((exec_of_idle hb i).symm.trans h)).symm

/-- Settles O8: the word reaches the engine, which drops it. -/
theorem busyDropsTheWord : Obligations.BusyDropsTheWord := fun _ _ _ hr hb hi =>
  ⟨_, (step_of_cmdWrite hr hi).trans (writeCmd_of_busy hb), rfl⟩

/-! ## What acceptance leaves unchanged -/

/-- Acceptance writes STATUS and the engine. -/
theorem accept_eq_set_status_eng (w : Word) (s : State) :
    accept w s = { s with status := (accept w s).status, eng := (accept w s).eng } := by
  unfold accept
  split <;> rfl

theorem accept_eng_seq (w : Word) (s : State) :
    (accept w s).eng.seq = if w = 0x00000010 then .prep else .compute := by
  unfold accept
  split <;> rfl

/-- Only STATUS and SEQ can read differently after an acceptance. -/
theorem sameGroup_accept (off : Nat) (w : Word) (s : State) : SameGroup off s (accept w s) := by
  constructor <;> simp

/-- Settles O7: at BUSY = 0 `exec` is the acceptance of the command's word. -/
theorem execAcceptsWhenIdle : Obligations.ExecAcceptsWhenIdle := by
  intro i s hb
  refine ⟨_, exec_of_idle hb i, by simp, ?_, accept_eng_cmd _ _, ?_, accept_eq_set_status_eng _ _,
    fun off hst hseq => (sameGroup_accept off _ s).readOffset hst hseq⟩
  · rw [accept_status]
    exact opcField_encode i
  · rw [accept_eng_seq, ← encode_swRead]
    simp only [encode_eq_swRead_iff]

/-! ## What starts a command -/

theorem step_of_resets {s : State} (h : resets s) : ∃ i, step s = .next (holdReset { s with inputs := i }) := by
  rcases h with h | h
  all_goals
    obtain ⟨rest, hi⟩ := List.head?_eq_some_iff.mp h
    exact ⟨rest, by simp only [step, nextEvent, hi, handleEvent, driveRst]⟩

/-- Of all that a step can do, only an acceptance raises BUSY. -/
theorem writesNext_of_busy_rises {s t : State} (hb : s.status.busy = false) (h : step s = .next t)
    (ht : t.status.busy = true) : ∃ w, writesNext 0x010 w s := by
  by_cases hreset : resets s
  · obtain ⟨i, hstep⟩ := step_of_resets hreset
    obtain rfl := Host.Outcome.next.inj (hstep.symm.trans h)
    cases ht
  · cases step_effect h hreset with
    | accepts i hw => exact ⟨_, hw⟩
    | passes | drops | writes | illegal | commits => simp_all

/-- Settles O6, by what acceptance writes and by what a step can do. -/
theorem acceptanceStartsTheCommand : Obligations.AcceptanceStartsTheCommand := by
  refine ⟨fun s w rest hr hb hi => ⟨_, step_of_accept hr hb hi, accept_status _ _, accept_eng_snap _ _,
    accept_eng_cnt _ _, ?_, fun hw => ?_, accept_eng_endstate _ _, ?_⟩, fun _ _ => writesNext_of_busy_rises⟩
  · rintro rfl
    exact ⟨rfl, rfl, rfl⟩
  · rw [accept_eng_of_ne hw]
    exact ⟨rfl, rfl, rfl⟩
  · rw [accept_resp]
    exact accept_eq_set_status_eng _ _

/-! ## An illegal word (R198) -/

/-- The first tick after the acceptance of an illegal word is its commit, whatever the line shows. -/
theorem engineTick_sampled_accept_of_illegal {w : Word} (hw : legalWord w = false) (s : State) (l : Level) :
    engineTick (sampled l (accept w s)) = .next (ended .illegalCommand (sampled l (accept w s))) := by
  refine engineTick_of_illegal ?_ ?_
  · simp [sampled]
  · simpa [sampled] using hw

/-- Settles O9: the word is accepted as any other, and its first tick is its commit. -/
theorem illegalWordCommitsAtTickZero : Obligations.IllegalWordCommitsAtTickZero := fun s w rest hr hb hw hi =>
  ⟨_, step_of_accept hr hb hi, by simp, by simp, engineTick_sampled_accept_of_illegal hw _⟩

end Sys2Proof.Machine
end

section
/-! PROOF. The interrupt level (60_exceptions.md R205). -/

namespace Sys2Proof.Machine

/-- R205: the level is the conjunction of the two bits. -/
theorem irq_eq_true_iff (s : State) : irq s = true ↔ s.host.ie = true ∧ s.status.done = true := by
  simp [irq]

theorem irq_writeReg_status (v : Word) (s : State) :
    irq (writeReg .status v s) = (s.host.ie && (s.status.done && !v.getLsbD 1)) := rfl

theorem irq_writeReg_ctrl (v : Word) (s : State) : irq (writeReg .ctrl v s) = (v.getLsbD 0 && s.status.done) := rfl

theorem irq_accept (w : Word) (s : State) : irq (accept w s) = false := by
  simp [irq]

theorem irq_commit (e : ErrCode) (s : State) : irq (commit e s) = s.host.ie := by
  simp [irq]

/-- No command writes a register of the host. -/
theorem CommitWrites.host {s u : State} {i : Instr} {e : ErrCode} (h : CommitWrites s i e u) : u.host = s.host := by
  cases h <;> rfl

/-- Of all that a step without reset can do, only a commit lowers BUSY. -/
theorem irq_of_busy_falls {s t : State} (h : step s = .next t) (hreset : ¬ resets s) (hb : s.status.busy = true)
    (ht : t.status.busy = false) : irq t = s.host.ie ∧ t.host = s.host := by
  cases step_effect h hreset with
  | illegal => exact ⟨irq_commit _ _, rfl⟩
  | commits _ _ hu =>
    rw [irq_commit, commit_host, hu.host]
    exact ⟨rfl, rfl⟩
  | passes | accepts | drops | writes => simp_all

/-- Settles O34, clause by clause from what each operation does to IE and DONE. -/
theorem interruptLevel : Obligations.InterruptLevel := by
  refine ⟨irq_eq_true_iff, fun s v h1 => ?_, fun s v h0 => ?_, fun s v hdone h0 => ?_, fun i s t hb h => ?_,
    irq_commit, fun _ _ => irq_of_busy_falls, fun _ => rfl⟩
  · rw [irq_writeReg_status, h1, Bool.not_true, Bool.and_false, Bool.and_false]
  · rw [irq_writeReg_ctrl, h0, Bool.false_and]
  · rw [irq_writeReg_ctrl, h0, hdone, Bool.and_self]
  · obtain rfl := eq_accept_of_exec hb h
    exact irq_accept _ _

end Sys2Proof.Machine
end

section
/-! PROOF. The COMPUTE commands tick by tick: they count until tick `P_COMP_LATENCY - 1`, which commits
(60_exceptions.md R197 to R199). -/

namespace Sys2Proof.Machine

/-! ## One tick -/

section
variable {i : Instr} (hnop : i ≠ .nop) (hread : i ≠ .swRead)
include hnop hread

/-- R197: every command but NOP and SW_READ performs its rule at one tick only. -/
theorem exists_tickOf_eq_computeTick : ∃ rule, tickOf i = computeTick rule := by
  cases i with
  | nop => exact absurd rfl hnop
  | swRead => exact absurd rfl hread
  | _ => exact ⟨_, rfl⟩

theorem tickOf_of_waiting {s : State} (hcnt : s.eng.cnt.toNat + 1 ≠ paramCompLatency s.par) :
    tickOf i s = count s := by
  obtain ⟨rule, htick⟩ := exists_tickOf_eq_computeTick hnop hread
  rw [htick, computeTick_waiting hcnt]

end

/-- Settles O22: at any other tick than the commit tick the rule is not performed. -/
theorem computeOnlyCountsBeforeItsCommit : Obligations.ComputeOnlyCountsBeforeItsCommit := by
  intro i s hnop hread hb hcnt
  rw [exec_of_busy hb, tickOf_of_waiting hnop hread hcnt]
  rfl

/-! ## A command in COMPUTE -/

/-- The command `i` is in flight in COMPUTE (10_state.md R60). -/
structure Computing (i : Instr) (s : State) : Prop where
  busy : s.status.busy = true
  cmd : s.eng.cmd = encode i
  seq : s.eng.seq = .compute

theorem computing_accept {i : Instr} (hread : i ≠ .swRead) (s : State) : Computing i (accept (encode i) s) where
  busy := by simp
  cmd := accept_eng_cmd _ _
  seq := by
    rw [accept_eng_seq, if_neg]
    exact fun hw => hread (encode_eq_swRead_iff.mp hw)

theorem CommitWrites.lastop {s u : State} {i : Instr} {e : ErrCode} (h : CommitWrites s i e u) :
    u.status.lastop = s.status.lastop := by
  cases h <;> rfl

section
variable {i : Instr} {s : State} (h : Computing i s)
include h

theorem Computing.runTicks_cons (l : Level) (ls : List Level) :
    runTicks (l :: ls) s = runTicks ls (tickOf i (sampled l s)) := by
  refine Machine.runTicks_cons ?_ ls
  have hdecode : decode (sampled l s).eng.cmd = .ok i := decode_eq_ok_iff.mpr h.cmd
  exact (engineTick_of_decode (s := sampled l s) h.busy hdecode).trans (exec_of_busy (s := sampled l s) h.busy i)

/-- R197: the tick `P_COMP_LATENCY - 1` does not count, and COMPUTE has no next phase. -/
theorem Computing.tickOf_commits (hread : i ≠ .swRead) (hcnt : s.eng.cnt.toNat + 1 = paramCompLatency s.par) :
    ∃ e u, tickOf i s = commit e u ∧ CommitWrites s i e u := by
  have heffect := tickOf_effect i s
  generalize tickOf i s = t at heffect ⊢
  cases heffect with
  | counts hlim => exact absurd hcnt (hlim (by simp [h.seq, wirePhase, hread]) _ (by rw [h.seq]; rfl))
  | moves _ _ _ hi => exact absurd hi hread
  | commits hu => exact ⟨_, _, rfl, hu⟩

/-- Up to the commit tick the command counts. -/
theorem Computing.runTicks_counts (hnop : i ≠ .nop) (hread : i ≠ .swRead) {ls : List Level}
    (hlen : s.eng.cnt.toNat + ls.length ≤ s.par.lastCompTick.toNat) :
    ∃ l, runTicks ls s = .next (waited ls.length l s) := by
  induction ls generalizing s with
  | nil => exact ⟨s.eng.swI, by rw [List.length_nil, waited_zero, runTicks]⟩
  | cons l ls ih =>
    rw [List.length_cons] at hlen
    have hlast := s.par.lastCompTick.isLt
    have htick : tickOf i (sampled l s) = count (sampled l s) :=
      tickOf_of_waiting hnop hread (by simp only [sampled, paramCompLatency]; omega)
    have hcnt : (count (sampled l s)).eng.cnt.toNat = s.eng.cnt.toNat + 1 := by
      simp only [count_eng, sampled]
      bv_omega
    obtain ⟨l', hrun⟩ := ih (s := count (sampled l s)) { h with } (by
      rw [hcnt]
      simp only [count_par, sampled]
      omega)
    exact ⟨l', by rw [h.runTicks_cons, htick, hrun, waited_count_sampled, List.length_cons]⟩

/-- R199: the commit, `P_COMP_LATENCY` ticks after the acceptance. -/
theorem Computing.runTicks_commits (hnop : i ≠ .nop) (hread : i ≠ .swRead) (hcnt : s.eng.cnt = 0) {ls : List Level}
    (hlen : ls.length = s.par.lastCompTick.toNat) (l : Level) :
    ∃ e u, runTicks (ls ++ [l]) s = .next (commit e u) ∧ u.status.lastop = s.status.lastop := by
  have hlast := s.par.lastCompTick.isLt
  obtain ⟨l', hrun⟩ := h.runTicks_counts hnop hread (ls := ls) (by rw [cnt_zero_add hcnt, hlen])
  have hwaited : Computing i (waited ls.length l' s) := { h with }
  have hsampled : Computing i (sampled l (waited ls.length l' s)) := { h with }
  obtain ⟨e, u, htick, hu⟩ := hsampled.tickOf_commits hread (by
    simp only [sampled, waited, hcnt, paramCompLatency]
    bv_omega)
  exact ⟨e, u, by rw [runTicks_append hrun, hwaited.runTicks_cons, htick, runTicks], hu.lastop⟩

end

/-! ## NOP and illegal words (R197, R198) -/

theorem runTicks_nop (s : State) (l : Level) :
    runTicks [l] (accept (encode .nop) s) = .next (commit .ok (sampled l (accept (encode .nop) s))) :=
  (computing_accept (by decide) s).runTicks_cons l []

theorem runTicks_illegal {w : Word} (hw : legalWord w = false) (s : State) (l : Level) :
    runTicks [l] (accept w s) = .next (ended .illegalCommand (sampled l (accept w s))) :=
  runTicks_cons (engineTick_sampled_accept_of_illegal hw s l) []

/-- Settles O56: acceptance is COMPUTE's tick count 0, from which the command counts to its commit. -/
theorem computeCommandsCommitOnTime : Obligations.ComputeCommandsCommitOnTime := by
  refine ⟨fun i s a ls hnop hread hb ha hlen => ?_, fun i s a ls hnop hread hb ha hlen => ?_,
    fun s a l hb ha => ?_, fun s a w l hb hw ha => ?_⟩
  · obtain rfl := eq_accept_of_exec hb ha
    have hlast := s.par.lastCompTick.isLt
    have hcomputing := computing_accept hread s
    obtain ⟨l, hrun⟩ := hcomputing.runTicks_counts hnop hread (ls := ls) (by simpa using hlen)
    refine ⟨_, hrun, hcomputing.busy, ?_, rfl⟩
    simp only [waited, accept_eng_cnt]
    bv_omega
  · obtain rfl := eq_accept_of_exec hb ha
    rcases List.eq_nil_or_concat' ls with rfl | ⟨ls, l, rfl⟩
    · cases hlen
    · rw [List.length_append, List.length_singleton] at hlen
      obtain ⟨e, u, hrun, hlastop⟩ := (computing_accept hread s).runTicks_commits hnop hread (accept_eng_cnt _ _)
        (ls := ls) (by simpa using hlen) l
      refine ⟨_, hrun, rfl, rfl, rfl, hlastop.trans ?_⟩
      rw [accept_status]
      exact opcField_encode i
  · obtain rfl := eq_accept_of_exec hb ha
    exact ⟨_, runTicks_nop s l, rfl, rfl⟩
  · obtain rfl := Host.Outcome.next.inj ((writeCmd_of_idle hb).symm.trans ha)
    exact ⟨_, runTicks_illegal hw s l, rfl, rfl⟩

end Sys2Proof.Machine
end

section
/-! PROOF. The longest a SW_READ with a wait limit can take (42_singlewire.md R157, 60_exceptions.md R199): the longest
its phases can take, one after another. -/

namespace Sys2Proof.Machine

/-! ## The longest time of each phase -/

/-- How many ticks a phase of SW_READ with a wait limit takes at most. -/
def phaseTicks (sn : Snap) : Seq → Nat
  | .prep | .swFinish => 1
  | .startLow => startTicks sn
  | .release => sn.releaseUs.toNat
  | .ackLow | .ackHigh | .bitEdge | .bitRestore => sn.waitLimit.toNat
  | .bitDelay => 40
  | .idle | .compute => 0

/-- With a wait limit these are the limits of `cnt` (10_state.md R61). -/
theorem phaseLimit_eq_phaseTicks {sn : Snap} {q : Seq} (p : Params) (hw : sn.waitLimit ≠ 0)
    (hq : wirePhase q = true) : phaseLimit p sn q = some (phaseTicks sn q) := by
  cases q with
  | idle | compute => cases hq
  | ackLow | ackHigh | bitEdge | bitRestore => exact if_neg hw
  | prep | startLow | release | bitDelay | swFinish => rfl

/-- How many ticks `bits` whole bits and SW_FINISH take at most: each bit is two waits and BIT_DELAY. -/
def bitsTicks (sn : Snap) (bits : Nat) : Nat := (2 * sn.waitLimit.toNat + 40) * bits + 1

theorem bitsTicks_succ (sn : Snap) (bits : Nat) :
    bitsTicks sn (bits + 1) = 2 * sn.waitLimit.toNat + 40 + bitsTicks sn bits := by
  unfold bitsTicks
  ring

/-- How many ticks the phases after `q` take at most, with `k` bits received. -/
def ticksAfter (sn : Snap) (k : Nat) : Seq → Nat
  | .prep => startTicks sn + sn.releaseUs.toNat + 2 * sn.waitLimit.toNat + bitsTicks sn (40 - k)
  | .startLow => sn.releaseUs.toNat + 2 * sn.waitLimit.toNat + bitsTicks sn (40 - k)
  | .release => 2 * sn.waitLimit.toNat + bitsTicks sn (40 - k)
  | .ackLow => sn.waitLimit.toNat + bitsTicks sn (40 - k)
  | .ackHigh => bitsTicks sn (40 - k)
  | .bitEdge => 40 + sn.waitLimit.toNat + bitsTicks sn (39 - k)
  | .bitDelay => sn.waitLimit.toNat + bitsTicks sn (39 - k)
  | .bitRestore => bitsTicks sn (39 - k)
  | .swFinish | .idle | .compute => 0

/-! ## A SW_READ that ends in time -/

theorem busy_checkAndConvert (f0 : Word) (f4 : Byte) (s : State) : (checkAndConvert f0 f4 s).status.busy = false := by
  rcases checkAndConvert_cases f0 f4 s with ⟨-, h⟩ | ⟨-, h⟩ <;> rw [h] <;> rfl

/-- R160, R166: SW_FINISH commits whatever the checksum outcome. -/
theorem busy_swFinish (s : State) : (swFinish s).status.busy = false := busy_checkAndConvert _ _ _

/-- A SW_READ is in flight, below the limit of its phase, and its phases leave it no more than `n` ticks. -/
structure EndsWithin (n : Nat) (s : State) : Prop where
  reading : readingIn s.eng.seq s
  wire : wirePhase s.eng.seq = true
  bitidx_legal : bitidxLegal s.eng.seq s.eng.bitidx
  /-- Every phase takes a tick: the wait limit is not 0 and the timings are legal. -/
  phase_pos : ∀ q, wirePhase q = true → 0 < phaseTicks s.eng.snap q
  cnt_lt : s.eng.cnt.toNat < phaseTicks s.eng.snap s.eng.seq
  left : phaseTicks s.eng.snap s.eng.seq + ticksAfter s.eng.snap s.eng.bitidx s.eng.seq ≤ n + s.eng.cnt.toNat

section
variable {n : Nat} {s : State} (h : EndsWithin (n + 1) s)
include h

theorem EndsWithin.waitLimit_ne_zero : s.eng.snap.waitLimit ≠ 0 := by
  have hpos := h.phase_pos .ackLow rfl
  simp only [phaseTicks] at hpos
  exact fun h0 => by simp [h0] at hpos

/-- A tick that counts uses up one tick of the phase. -/
theorem EndsWithin.count (hne : s.eng.cnt.toNat + 1 ≠ phaseTicks s.eng.snap s.eng.seq) :
    EndsWithin n (count s) := by
  have hmax := phaseLimit_le (phaseLimit_eq_phaseTicks s.par h.waitLimit_ne_zero h.wire)
  have hlt := h.cnt_lt
  have hcnt : (s.eng.cnt + 1).toNat = s.eng.cnt.toNat + 1 := by bv_omega
  exact { h with
    cnt_lt := toNat_add_one_lt hlt hne hmax
    left := by
      have hleft := h.left
      simp only [count_eng, hcnt]
      omega }

/-- A move to the next phase uses up what is left of this one, the present tick at least. -/
theorem EndsWithin.move {q : Seq} {k : Nat} (b : BitVec 40) (hq : wirePhase q = true) (hk : bitidxLegal q k)
    (hafter : phaseTicks s.eng.snap q + ticksAfter s.eng.snap k q ≤ ticksAfter s.eng.snap s.eng.bitidx s.eng.seq) :
    EndsWithin n { s with eng := { s.eng with seq := q, cnt := 0, bitidx := k, shreg := b } } :=
  { h with
    reading := by
      obtain ⟨hb, hcmd, -⟩ := h.reading
      exact ⟨hb, hcmd, rfl⟩
    wire := hq
    bitidx_legal := hk
    cnt_lt := h.phase_pos q hq
    left := by
      have hlt := h.cnt_lt
      have hleft := h.left
      simp only [BitVec.ofNat_eq_ofNat, BitVec.toNat_ofNat]
      omega }

/-- A move that keeps the bit count, by the phase `q` it leaves. -/
theorem EndsWithin.goto {q q' : Seq} (hq : s.eng.seq = q) (hq' : wirePhase q' = true)
    (hk : bitidxLegal q s.eng.bitidx → bitidxLegal q' s.eng.bitidx)
    (hafter : bitidxLegal q s.eng.bitidx →
      phaseTicks s.eng.snap q' + ticksAfter s.eng.snap s.eng.bitidx q' ≤ ticksAfter s.eng.snap s.eng.bitidx q) :
    EndsWithin n (goto q' s) := by
  subst hq
  exact h.move s.eng.shreg hq' (hk h.bitidx_legal) (hafter h.bitidx_legal)

theorem EndsWithin.fixedPhase {ticks : Nat} {q : Seq} (hticks : phaseTicks s.eng.snap s.eng.seq = ticks)
    (hmove : EndsWithin n (Machine.goto q s)) : EndsWithin n (fixedPhase ticks q s) := by
  rcases fixedPhase_cases ticks q s with ⟨-, htick⟩ | ⟨hne, htick⟩ <;> rw [htick]
  · exact hmove
  · exact h.count (hticks ▸ hne)

/-- A wait ends by its level or by its limit. -/
theorem EndsWithin.levelWait {v : Level} {advance : State → State}
    (hwait : phaseTicks s.eng.snap s.eng.seq = s.eng.snap.waitLimit.toNat) (hadvance : EndsWithin n (advance s)) :
    (levelWait v advance s).status.busy = false ∨ EndsWithin n (levelWait v advance s) := by
  rcases levelWait_cases v advance s with ⟨-, htick⟩ | ⟨-, -, -, htick⟩ | ⟨-, hlim, htick⟩ <;> rw [htick]
  · exact .inr hadvance
  · exact .inl rfl
  · refine .inr (h.count fun hc => hlim ⟨h.waitLimit_ne_zero, ?_⟩)
    rw [hc, hwait]

theorem EndsWithin.bitDelayTick (hq : s.eng.seq = .bitDelay) : EndsWithin n (bitDelayTick s) := by
  have hk := h.bitidx_legal
  rw [hq] at hk
  rcases bitDelayTick_cases s with ⟨-, htick⟩ | ⟨hne, htick⟩ <;> rw [htick]
  · exact h.move _ rfl hk (by rw [hq]; exact le_rfl)
  · refine h.count fun hc => hne ?_
    rw [hq] at hc
    simp only [phaseTicks] at hc
    bv_omega

theorem EndsWithin.bitDone (hq : s.eng.seq = .bitRestore) : EndsWithin n (bitDone s) := by
  have hk : s.eng.bitidx < 40 := by
    have hlegal := h.bitidx_legal
    rwa [hq] at hlegal
  by_cases hlast : s.eng.bitidx + 1 = 40
  · rw [Machine.bitDone, if_pos hlast]
    refine h.move s.eng.shreg rfl hlast ?_
    rw [hq]
    simp only [phaseTicks, ticksAfter, bitsTicks]
    omega
  · rw [Machine.bitDone, if_neg hlast]
    refine h.move s.eng.shreg rfl (show s.eng.bitidx + 1 < 40 by omega) ?_
    have hbits := bitsTicks_succ s.eng.snap (39 - (s.eng.bitidx + 1))
    rw [show 39 - (s.eng.bitidx + 1) + 1 = 39 - s.eng.bitidx by omega] at hbits
    rw [hq]
    simp only [phaseTicks, ticksAfter]
    omega

/-- Every tick of the SW_READ commits it or leaves it one tick less, phase by phase. -/
theorem EndsWithin.swReadTick : (swReadTick s).status.busy = false ∨ EndsWithin n (swReadTick s) := by
  cases hq : s.eng.seq with
  | prep =>
    rw [swReadTick_of_prep hq]
    exact .inr (h.goto hq rfl id fun _ => by simp only [phaseTicks, ticksAfter]; omega)
  | startLow =>
    rw [swReadTick_of_startLow hq]
    refine .inr (h.fixedPhase (by rw [hq]; rfl) (h.goto hq rfl id fun _ => ?_))
    simp only [phaseTicks, ticksAfter]
    omega
  | release =>
    rw [swReadTick_of_release hq]
    refine .inr (h.fixedPhase (by rw [hq]; rfl) (h.goto hq rfl id fun _ => ?_))
    simp only [phaseTicks, ticksAfter]
    omega
  | ackLow =>
    rw [swReadTick_of_ackLow hq]
    exact h.levelWait (by rw [hq]; rfl) (h.goto hq rfl id fun _ => le_rfl)
  | ackHigh =>
    rw [swReadTick_of_ackHigh hq]
    refine h.levelWait (by rw [hq]; rfl) (h.goto hq rfl (fun hk => ?_) fun hk => ?_)
    · exact hk.trans_lt (by decide)
    · have hbits : bitsTicks s.eng.snap 40 = 2 * s.eng.snap.waitLimit.toNat + 40 + bitsTicks s.eng.snap 39 :=
        bitsTicks_succ _ 39
      rw [show s.eng.bitidx = 0 from hk]
      simp only [phaseTicks, ticksAfter, Nat.sub_zero]
      omega
  | bitEdge =>
    rw [swReadTick_of_bitEdge hq]
    refine h.levelWait (by rw [hq]; rfl) (h.goto hq rfl id fun _ => ?_)
    simp only [phaseTicks, ticksAfter]
    omega
  | bitDelay =>
    rw [swReadTick_of_bitDelay hq]
    exact .inr (h.bitDelayTick hq)
  | bitRestore =>
    rw [swReadTick_of_bitRestore hq]
    exact h.levelWait (by rw [hq]; rfl) (h.bitDone hq)
  | swFinish =>
    rw [swReadTick_of_swFinish hq]
    exact .inl (busy_swFinish s)
  | idle | compute =>
    have hwire := h.wire
    rw [hq] at hwire
    cases hwire

end

/-! ## Runs -/

/-- The longest a SW_READ with legal timings can take, from its acceptance. -/
theorem endsWithin_accept {s : State} (hw : s.host.waitLimit ≠ 0) (hstart : 18 ≤ s.host.startMs.toNat)
    (hrelease : 20 ≤ s.host.releaseUs.toNat) :
    EndsWithin (s.host.startMs.toNat * 1000 + s.host.releaseUs.toNat + 1602 + 82 * s.host.waitLimit.toNat)
      (accept 0x00000010 s) where
  reading := readingIn_accept s
  wire := rfl
  bitidx_legal := rfl
  phase_pos := fun q hq => by
    have hwait : 0 < s.host.waitLimit.toNat :=
      Nat.pos_of_ne_zero fun h0 => hw (BitVec.eq_of_toNat_eq h0)
    rw [accept_eng_snap]
    cases q with
    | idle | compute => cases hq
    | startLow => simp only [phaseTicks, startTicks, snapshot]; omega
    | release => simp only [phaseTicks, snapshot]; omega
    | ackLow | ackHigh | bitEdge | bitRestore => exact hwait
    | prep | bitDelay | swFinish => exact Nat.succ_pos _
  cnt_lt := Nat.one_pos
  left := by
    simp only [accept_eng_swRead, phaseTicks, ticksAfter, bitsTicks, startTicks, snapshot]
    omega

/-- A SW_READ has committed once its ticks are used up. -/
theorem EndsWithin.runTicks {s : State} {ls : List Level} (h : EndsWithin ls.length s) :
    ∃ t, runTicks ls s = .next t ∧ t.status.busy = false := by
  induction ls generalizing s with
  | nil =>
    have hlt := h.cnt_lt
    have hleft := h.left
    rw [List.length_nil] at hleft
    omega
  | cons l ls ih =>
    rw [runTicks_cons_reading h.reading]
    have hsampled : EndsWithin (ls.length + 1) (sampled l s) := { h with }
    rcases hsampled.swReadTick with hidle | hends
    · obtain ⟨c, l', hrun⟩ := runTicks_of_idle hidle ls
      exact ⟨_, hrun, hidle⟩
    · exact ih hends

/-- Settles O57: acceptance leaves that many ticks at most, and each tick uses up one at least. -/
theorem boundedSwReadCommits : Obligations.BoundedSwReadCommits := by
  intro s a ls hb ha hw hstart hrelease hlen
  obtain rfl := exec_swRead_of_idle hb ha
  exact EndsWithin.runTicks (hlen ▸ endsWithin_accept hw hstart hrelease)

end Sys2Proof.Machine
end

section
/-! PROOF. A SW_READ in a wait without a limit stays in it until its level comes (42_singlewire.md R156,
60_exceptions.md R207). -/

namespace Sys2Proof.Machine

/-- The waits of SW_READ are level waits. -/
theorem exists_swReadTick_eq_levelWait {s : State} {v : Level} (hv : awaited s.eng.seq = some v) :
    ∃ advance, swReadTick s = levelWait v advance s := by
  cases hq : s.eng.seq <;> rw [hq] at hv <;> cases hv
  · exact ⟨_, swReadTick_of_ackLow hq⟩
  · exact ⟨_, swReadTick_of_ackHigh hq⟩
  · exact ⟨_, swReadTick_of_bitEdge hq⟩
  · exact ⟨_, swReadTick_of_bitRestore hq⟩

/-- The sample is taken from the environment alone. -/
theorem sampleLine_swI_congr {s s' : State} (hline : s'.lineIn = s.lineIn) (hdraws : s'.draws = s.draws) :
    (sampleLine s').eng.swI = (sampleLine s).eng.swI := by
  unfold sampleLine
  rw [hline, hdraws]
  split <;> rfl

/-- `t` is in the unbounded wait of `s`. -/
structure StillWaiting (s t : State) : Prop where
  busy : t.status.busy = s.status.busy
  done : t.status.done = false
  cmd : t.eng.cmd = s.eng.cmd
  snap : t.eng.snap = s.eng.snap
  seq : t.eng.seq = s.eng.seq

section
variable {s t : State} (hwait : unboundedWait s)
include hwait

theorem StillWaiting.unboundedWait (h : StillWaiting s t) : unboundedWait t := by
  obtain ⟨hb, hcmd, hlevel, hlimit⟩ := hwait
  exact ⟨h.busy.trans hb, h.cmd.trans hcmd, by rwa [h.seq], by rwa [h.snap]⟩

/-- R156: without a limit and without the level a tick counts. -/
theorem swReadTick_of_unboundedWait {v : Level} (hv : awaited s.eng.seq = some v) (hne : s.eng.swI ≠ v) :
    swReadTick s = count s := by
  obtain ⟨-, -, -, hlimit⟩ := hwait
  obtain ⟨advance, htick⟩ := exists_swReadTick_eq_levelWait hv
  rw [htick]
  rcases levelWait_cases v advance s with ⟨heq, -⟩ | ⟨-, h0, -⟩ | ⟨-, -, h⟩
  · exact absurd heq hne
  · exact absurd hlimit h0
  · exact h

theorem engineTick_of_unboundedWait {v : Level} (hv : awaited s.eng.seq = some v) (hne : s.eng.swI ≠ v) :
    engineTick s = .next (count s) := by
  obtain ⟨hb, hcmd, -⟩ := id hwait
  rw [engineTick_of_decode hb (decode_eq_ok_iff.mpr hcmd), exec_of_busy hb]
  exact congrArg _ (swReadTick_of_unboundedWait hwait hv hne)

variable (hdone : s.status.done = false)
include hdone

/-- A CMD write is dropped, and no other write reaches the engine. -/
theorem stillWaiting_of_writeCmd {w : Word} {r : HostResp} {i : List Event}
    (h : writeCmd w { s with resp := r, inputs := i } = .next t) : StillWaiting s t := by
  obtain ⟨hb, -⟩ := hwait
  obtain rfl := Host.Outcome.next.inj
    ((writeCmd_of_busy (s := { s with resp := r, inputs := i }) hb).symm.trans h)
  exact ⟨rfl, hdone, rfl, rfl, rfl⟩

theorem stillWaiting_of_clkCycle {v : Level} {i : List Event} (hv : awaited s.eng.seq = some v)
    (hne : s.rstN = true → s.div = s.par.clkPerTickPred → (sampleLine s).eng.swI ≠ v)
    (h : clkCycle { s with inputs := i } = .next t) : StillWaiting s t := by
  rcases clkCycle_cases h with ⟨-, rfl⟩ | ⟨hr, hd, h⟩ | ⟨-, -, rfl⟩
  · exact ⟨rfl, hdone, rfl, rfl, rfl⟩
  · have hsame : StillWaiting s (sampleLine { s with inputs := i, div := 0 }) := by
      constructor <;> simp [hdone]
    have hsample : (sampleLine { s with inputs := i, div := 0 }).eng.swI = (sampleLine s).eng.swI :=
      sampleLine_swI_congr rfl rfl
    rw [engineTick_of_unboundedWait (hsame.unboundedWait hwait) (by rwa [hsame.seq])
      (hsample ▸ hne hr (Nat.succ.inj hd))] at h
    obtain rfl := Host.Outcome.next.inj h
    exact { hsame with }
  · exact ⟨rfl, hdone, rfl, rfl, rfl⟩

end

/-- Settles O59, by what the step did: only a tick could end the wait. -/
theorem unboundedWaitHangs : Obligations.UnboundedWaitHangs := by
  intro s t v hwait hdone hv hreset hline h
  have hstill : StillWaiting s t := by
    rcases step_cases h with ⟨r, i, rfl⟩ | ⟨i, rfl⟩ | ⟨hr, -⟩ | ⟨w, rest, -, -, h⟩ |
      ⟨r, -, v, rest, -, -, -, -, rfl⟩ | ⟨i, hi, h⟩
    · exact ⟨rfl, hdone, rfl, rfl, rfl⟩
    · exact ⟨rfl, hdone, rfl, rfl, rfl⟩
    · exact absurd hr hreset
    · exact stillWaiting_of_writeCmd hwait hdone h
    · exact ⟨ite_statusW1C_busy _ _ _, eq_false_of_ne_true fun hd =>
        Bool.false_ne_true (hdone.symm.trans (done_of_ite_statusW1C r v _ hd)), rfl, rfl, rfl⟩
    · exact stillWaiting_of_clkCycle hwait hdone hv (hline i hi.symm) h
  exact ⟨hstill.unboundedWait hwait, hstill.done, hstill.seq⟩

end Sys2Proof.Machine
end

section
/-! PROOF. The reset pin and the power cycle (70_reset_and_hazards.md R230, 60_exceptions.md R214): the steps they take,
and that each access and clock cycle is without effect on SWCP while `rst_n` is low. -/

namespace Sys2Proof.Machine

/-! ## The pin's events as steps -/

theorem step_of_resetEvent {s : State} {rest : List Event}
    (hi : s.inputs = .rst .low :: rest ∨ s.inputs = .powerCycle :: rest) :
    step s = .next (holdReset { s with inputs := rest }) := by
  rcases hi with hi | hi
  · simp only [step, nextEvent, hi, handleEvent, driveRst]
  · simp only [step, nextEvent, hi, handleEvent]

theorem step_of_rstHigh {s : State} {rest : List Event} (hi : s.inputs = .rst .high :: rest) :
    step s = .next { s with rstN := true, inputs := rest } := by
  simp only [step, nextEvent, hi, handleEvent, driveRst]

/-! ## Events while `rst_n` is low -/

section
variable {s : State} (hr : s.rstN = false)
include hr

theorem hostWrite_of_held {off : Nat} (hoff : off < 4096) (width : Nat) (v : Word) :
    hostWrite off width v s = .next { s with resp := .ack } := by
  simp [hostWrite, inWindow_eq_true_iff.mpr hoff, hr]

theorem hostRead_of_held {off : Nat} (hoff : off < 4096) (width : Nat) :
    hostRead off width s = .next { s with resp := .data 0 } := by
  simp [hostRead, inWindow_eq_true_iff.mpr hoff, hr]

/-- The 0 read for STATUS has BUSY clear, so the loop ends with its first turn. -/
theorem hostWait_of_held : hostWait s = .next { s with resp := .data 0 } := by
  simp [hostWait, hr]

theorem clkCycle_of_held : clkCycle s = .next s := by
  simp [clkCycle, hr]

end

/-- Settles O4, by the event of the step. -/
theorem resetPinAbandonsTheCommand : Obligations.ResetPinAbandonsTheCommand := by
  refine ⟨fun s rest => step_of_resetEvent, fun s rest => step_of_rstHigh, fun s rest off width v hr hoff hi => ?_,
    fun s rest off width hr hoff hi => ?_, fun s rest hr hi => ?_, fun s rest hr hc => ?_⟩
  · rw [step_of_hostWrite hi]
    exact hostWrite_of_held (s := { s with inputs := rest }) hr hoff width v
  · rw [step_of_hostRead hi]
    exact hostRead_of_held (s := { s with inputs := rest }) hr hoff width
  · rw [step_of_wait hi]
    exact hostWait_of_held (s := { s with inputs := rest }) hr
  · rw [step_of_clockCycle hc]
    exact clkCycle_of_held (s := { s with inputs := rest }) hr

end Sys2Proof.Machine
end
